-- ==== Sys2Proof/Word.lean ====
section
/-! DEFINITION. The word types of the machine: bytes, 16-bit words, 12-bit addresses and register indexes. -/

namespace Sys2Proof

/-- An 8-bit value: a memory cell, a general register, a timer, the immediate NN (R7, R30, R101). -/
abbrev Byte := BitVec 8

/-- A 16-bit value: I, PC, a return address, an instruction word (R34, R35, R37, R100). -/
abbrev Word := BitVec 16

/-- The 12-bit address immediate NNN (R101). -/
abbrev Addr12 := BitVec 12

/-- A register index X or Y, 0 to 15 (R30): every 4-bit field names a register. -/
abbrev Reg := Fin 16

end Sys2Proof
end

