-- ==== Sys2Proof/Syntax.lean ====
section
/-! DEFINITION. The instructions: one constructor per row of spec/opcode_table.json (R108), in the table's order. Operands
carry their fields' names: x and y register indexes, nn the 8-bit immediate, nnn the 12-bit address, n the row count. -/

namespace Sys2Proof

inductive Instr where
  /-- `00E0` CLS (R174) -/
  | cls
  /-- `00EE` RET (R190) -/
  | ret
  /-- `0NNN` SYS addr (R191) -/
  | sys (nnn : Addr12)
  /-- `1NNN` JP addr (R192) -/
  | jp (nnn : Addr12)
  /-- `2NNN` CALL addr (R193) -/
  | call (nnn : Addr12)
  /-- `3XNN` SE Vx, byte (R194) -/
  | seByte (x : Reg) (nn : Byte)
  /-- `4XNN` SNE Vx, byte (R195) -/
  | sneByte (x : Reg) (nn : Byte)
  /-- `5XY0` SE Vx, Vy (R196) -/
  | seReg (x y : Reg)
  /-- `6XNN` LD Vx, byte (R220) -/
  | ldByte (x : Reg) (nn : Byte)
  /-- `7XNN` ADD Vx, byte (R221) -/
  | addByte (x : Reg) (nn : Byte)
  /-- `8XY0` LD Vx, Vy (R222) -/
  | ldReg (x y : Reg)
  /-- `8XY1` OR Vx, Vy (R223) -/
  | orReg (x y : Reg)
  /-- `8XY2` AND Vx, Vy (R224) -/
  | andReg (x y : Reg)
  /-- `8XY3` XOR Vx, Vy (R225) -/
  | xorReg (x y : Reg)
  /-- `8XY4` ADD Vx, Vy (R226) -/
  | addReg (x y : Reg)
  /-- `8XY5` SUB Vx, Vy (R227) -/
  | subReg (x y : Reg)
  /-- `8XY6` SHR Vx, Vy (R228) -/
  | shr (x y : Reg)
  /-- `8XY7` SUBN Vx, Vy (R229) -/
  | subn (x y : Reg)
  /-- `8XYE` SHL Vx, Vy (R230) -/
  | shl (x y : Reg)
  /-- `9XY0` SNE Vx, Vy (R197) -/
  | sneReg (x y : Reg)
  /-- `ANNN` LD I, addr (R250) -/
  | ldI (nnn : Addr12)
  /-- `BNNN` JP V0, addr (R198) -/
  | jpV0 (nnn : Addr12)
  /-- `CXNN` RND Vx, byte (R231) -/
  | rnd (x : Reg) (nn : Byte)
  /-- `DXYN` DRW Vx, Vy, nibble (R175) -/
  | drw (x y : Reg) (n : Fin 16)
  /-- `EX9E` SKP Vx (R270) -/
  | skp (x : Reg)
  /-- `EXA1` SKNP Vx (R271) -/
  | sknp (x : Reg)
  /-- `FX07` LD Vx, DT (R272) -/
  | ldVxDT (x : Reg)
  /-- `FX0A` LD Vx, K (R273) -/
  | ldVxK (x : Reg)
  /-- `FX15` LD DT, Vx (R274) -/
  | ldDTVx (x : Reg)
  /-- `FX18` LD ST, Vx (R275) -/
  | ldSTVx (x : Reg)
  /-- `FX1E` ADD I, Vx (R251) -/
  | addI (x : Reg)
  /-- `FX29` LD F, Vx (R252) -/
  | ldF (x : Reg)
  /-- `FX33` LD B, Vx (R253) -/
  | ldB (x : Reg)
  /-- `FX55` LD [I], Vx (R254) -/
  | stRegs (x : Reg)
  /-- `FX65` LD Vx, [I] (R255) -/
  | ldRegs (x : Reg)
  deriving DecidableEq, Repr

end Sys2Proof
end

