-- ==== Sys2Proof/Config.lean ====
section
/-! DEFINITION. What is fixed for the machine: the parameters of R7, the open parameters of R8, and the inputs a step
samples (R15) with the host's moves and the opaque supplies of their free values. -/

namespace Sys2Proof

/-- SHIFT_SOURCE (R8, R228, R230): which register `8XY6` and `8XYE` shift. -/
inductive ShiftSource where
  | vx
  | vy
  deriving DecidableEq, Repr

/-- The four inputs a step samples and does not hold as state of the CORE (R15). -/
structure StepInputs where
  /-- `keys`: the pressed state of each of the 16 logical keys (R276). -/
  keys     : Vector Bool 16
  /-- `key_event`: the next key-press event, if the host offers one (R277). -/
  keyEvent : Option (Fin 16)
  /-- `rand`: the random byte of `CXNN` (R231). -/
  rand     : Byte
  /-- `key_oob`: the pressed answer for a key index above 15 (R270). -/
  keyOob   : Bool
  deriving DecidableEq, Repr, Inhabited

/-- What the host does next (R14–R16). `FbGet` changes nothing and is a function (`fbGet`), not a move. -/
inductive HostMove where
  /-- `Reset` (R341). -/
  | reset
  /-- `Load(bytes)` (R345). -/
  | load (bytes : List Byte)
  /-- `Tick` (R278). -/
  | tick
  /-- A step request with the four inputs the host supplies for it (R14, R15). -/
  | request (inputs : StepInputs)
  deriving DecidableEq, Repr, Inhabited

namespace Config

/-- The last address of memory (R7, R70). -/
abbrev lastAddr : Nat := 0xFFF

/-- `STACK_CAP` (R7, R37). -/
abbrev stackCap : Nat := 16

/-- `PROG_BASE`: the loader's start address and the reset PC (R7). -/
abbrev progBase : Nat := 0x200

/-- The longest program the loader takes, `0xFFF - 0x200 + 1` bytes (R345). -/
abbrev loadMax : Nat := 3584

/-- `FONT_STRIDE`: bytes per glyph (R7). -/
abbrev fontStride : Nat := 5

/-- `FONT_BASE` (R8, D15 OPEN): no value is given anywhere, so the constant has no body (log entry 6). -/
opaque fontBase : Word

/-- `SHIFT_SOURCE` as State.reset holds it: VX, the normative default (D31; log entry 7). -/
abbrev shiftSource : ShiftSource := .vx

/-- The inputs State holds between two steps: any values of their types, under no law (R15, D24; log entry 4). The argument
is the counter `draws` of State. -/
opaque freeInputs : Nat → StepInputs

/-- What a host does for which State plans nothing by name: any endless sequence of step requests and host actions, in any
interleaving, a request with any inputs (R16, R355, D3; log entry 3). The argument is the counter `movesDrawn` of State. -/
opaque freeMoves : Nat → HostMove

end Config

end Sys2Proof
end

