-- ==== Sys2Proof/Machine/State.lean ====
section
/-! DEFINITION. The state of the machine as plain data (10_state.md), the reasons of errors, and the state after reset. -/

namespace Sys2Proof.Machine

/-- The five error kinds (R300). Each is raised inside a step and TAKEN there: the spec says what an error does (R305,
R146), so the step answers a next state whose status is Halted with this kind in its record, and no step answers
`Host.Outcome.fault` (log entry 1). -/
inductive Fault where
  /-- An access above 0xFFF: the fetch, `DXYN`, `FX33`, `FX55`, `FX65` (R301). Safe: the spec names the error. -/
  | outOfBounds
  /-- `2NNN` with 16 entries on the stack (R302). Safe: the spec names the error. -/
  | stackOverflow
  /-- `00EE` with an empty stack (R302). Safe: the spec names the error. -/
  | stackUnderflow
  /-- The decoder, on a word of no row (R303). Safe: the spec names the error. -/
  | unknownOpcode
  /-- `0NNN` SYS (R304). Safe: the spec names the error. -/
  | unsupportedOperation
  deriving DecidableEq, Repr

/-- Why the model has no meaning for an instruction. -/
inductive Refusal where
  /-- Raised by an arm of exec that has no meaning yet; no arm is left, so nothing raises it. Safe: a refusal proves
  nothing about the hardware. -/
  | notModelled (mnemonic : String)
  deriving DecidableEq, Repr

/-- The error record of a halted machine (R43). -/
structure ErrRecord where
  kind : Fault
  /-- PC at the start of the failing step. -/
  pc   : Word
  /-- The fetched word, or none if the fetch failed. -/
  word : Option Word
  /-- The first out-of-range address, for `OutOfBounds` only; an unbounded natural number (R74). -/
  addr : Option Nat
  deriving DecidableEq, Repr

/-- The machine's two modes (R42, R311). -/
inductive Status where
  | running
  | halted (e : ErrRecord)
  deriving DecidableEq, Repr

/-- What the CORE answered last on its interfaces (R14; the loader's failure, R345). -/
inductive Answer where
  /-- `Ok`: the step completed. -/
  | ok
  /-- `Hold`: `FX0A` and no key-press event. -/
  | hold
  /-- `Err(e)`: the step raised e. -/
  | err (e : ErrRecord)
  /-- `Refused(e)`: the status was already Halted(e). -/
  | refused (e : ErrRecord)
  /-- A `Load` longer than 3584 bytes failed. -/
  | programTooLarge
  deriving DecidableEq, Repr

/-- Memory (R70): the cells that differ from what an unlisted address reads as, addresses strictly rising. -/
abbrev Memory := List Host.Cell

/-- The framebuffer (R41): 32 rows of 64 pixels, true = on. -/
abbrev Framebuffer := Vector (Vector Bool 64) 32

/-- Every piece of state the spec gives the machine, its parameters, and the model's own fields for its interfaces. -/
structure State where
  /-- V0..VF; V[15] is VF (R30, R32). -/
  V           : Vector Byte 16
  /-- The index register (R34). -/
  I           : Word
  /-- The program counter (R35). -/
  PC          : Word
  /-- The return-address stack, head = top (R37). -/
  stack       : List Word
  /-- The delay timer (R40). -/
  DT          : Byte
  /-- The sound timer (R40). -/
  ST          : Byte
  /-- The framebuffer (R41). -/
  fb          : Framebuffer
  /-- Memory (R70). -/
  mem         : Memory
  /-- Running, or Halted with its record (R42, R43). -/
  status      : Status
  /-- Parameter `FONT_BASE` (R8); never changed (log entry 6). -/
  fontBase    : Word
  /-- Parameter `SHIFT_SOURCE` (R8); never changed (log entry 7). -/
  shiftSource : ShiftSource
  /-- The model's own: the inputs a step samples (R15; log entry 4). -/
  inputs      : StepInputs
  /-- The model's own: how many free inputs were drawn (log entry 4). -/
  draws       : Nat
  /-- The model's own: what the host does next as far as it is known by name, oldest first; after it the host is free
  (R16, R355; log entry 3). -/
  moves       : List HostMove
  /-- The model's own: how many free moves of the host were drawn (log entry 3). -/
  movesDrawn  : Nat
  /-- The model's own: the last answer (R14; log entry 2). -/
  answer      : Option Answer
  deriving DecidableEq, Repr

/-- The outcome of a step. -/
abbrev Result := Host.Outcome State Fault Refusal

/-- The machine after construction and reset (R47, R340). Memory lists nothing: log entry 5. The inputs: log entry
4. No move of the host is known: log entry 3. -/
def State.reset : State where
  V           := Vector.replicate 16 0x00#8
  I           := 0x0000#16
  PC          := 0x0200#16
  stack       := []
  DT          := 0x00#8
  ST          := 0x00#8
  fb          := Vector.replicate 32 (Vector.replicate 64 false)
  mem         := []
  status      := .running
  fontBase    := Config.fontBase
  shiftSource := Config.shiftSource
  inputs      :=
    { keys     := Vector.replicate 16 false
      keyEvent := none
      rand     := (Config.freeInputs 0).rand
      keyOob   := (Config.freeInputs 0).keyOob }
  draws       := 1
  moves       := []
  movesDrawn  := 0
  answer      := none

end Sys2Proof.Machine
end

