-- ==== Sys2Proof/Machine/Ops.lean ====
section
/-! DEFINITION. The named operations over memory, registers, the stack and the framebuffer; the ends of a step: completing,
holding, and raising an error. -/

namespace Sys2Proof.Machine

/-! ### Memory (20_memory.md) -/

/-- What an address that memory does not list reads as: the INIT_MEM of State.reset (log entry 5). -/
def Memory.unlisted : Byte := 0x00#8

/-- `mem[a]`. -/
def Memory.read : Memory → Nat → Byte
  | [], _ => Memory.unlisted
  | c :: m, a => if c.1 = a then c.2 else Memory.read m a

/-- Memory without a cell for `a`. -/
def Memory.dropCell (m : Memory) (a : Nat) : Memory := m.filter (fun c => c.1 != a)

/-- Put a cell in its place by address. -/
def Memory.insertCell : Memory → Nat → Byte → Memory
  | [], a, v => [(a, v)]
  | c :: m, a, v => if c.1 < a then c :: Memory.insertCell m a v else (a, v) :: c :: m

/-- `mem[a] <- v`, keeping the canonical form. -/
def Memory.write (m : Memory) (a : Nat) (v : Byte) : Memory :=
  if v = Memory.unlisted then Memory.dropCell m a else Memory.insertCell (Memory.dropCell m a) a v

/-- The bytes at `a`, `a + 1`, …, in ascending order (R80). -/
def Memory.readBytes (m : Memory) : Nat → Nat → List Byte
  | _, 0 => []
  | a, n + 1 => Memory.read m a :: Memory.readBytes m (a + 1) n

/-- Write bytes at `a`, `a + 1`, …, in ascending order (R80). -/
def Memory.writeBytes : Memory → Nat → List Byte → Memory
  | m, _, [] => m
  | m, a, b :: bs => Memory.writeBytes (Memory.write m a b) (a + 1) bs

/-- Every cell lies at `lo` or above, in range, at strictly rising addresses, and differs from the unlisted value. -/
def Memory.wfFrom : Nat → Memory → Bool
  | _, [] => true
  | lo, c :: m => decide (lo ≤ c.1) && decide (c.1 ≤ Config.lastAddr) && (c.2 != Memory.unlisted) && Memory.wfFrom (c.1 + 1) m

/-- The canonical form of memory. -/
def Memory.wf (m : Memory) : Bool := Memory.wfFrom 0 m

/-- The lowest address of `a .. a+n-1` above 0xFFF, if one is (R71, R74, R80). Addresses are natural numbers: nothing
wraps. -/
def firstOutOfRange : Nat → Nat → Option Nat
  | _, 0 => none
  | a, n + 1 => if Config.lastAddr < a then some a else firstOutOfRange (a + 1) n

/-- `MemRead(a, 2)`: the big-endian word, or the address that is out of bounds (R73). -/
def fetchWord (m : Memory) (a : Nat) : Except Nat Word :=
  match firstOutOfRange a 2 with
  | some b => .error b
  | none => .ok (wordOfBytes (Memory.read m a) (Memory.read m (a + 1)))

/-! ### Registers (10_state.md) -/

/-- `V[x]`. -/
def State.reg (s : State) (x : Reg) : Byte := s.V[x.val]

/-- `V[x] <- b` (R31). -/
def State.writeReg (s : State) (x : Reg) (b : Byte) : State := { s with V := s.V.set x.val b }

/-- VF, the flag register (R32). -/
def regF : Reg := 15

/-- `PC <- a` (R35). -/
def State.setPC (s : State) (a : Word) : State := { s with PC := a }

/-- The advance of a step: `PC <- PC0 + 2`, mod 65536 (R141). -/
def State.advance (s : State) : State := s.setPC (s.PC + 2#16)

/-- A skip on condition `c`: two more bytes (R199). -/
def State.skipIf (s : State) (c : Bool) : State := if c then s.setPC (s.PC + 2#16) else s

/-- `I <- a` (R34). -/
def State.setI (s : State) (a : Word) : State := { s with I := a }

/-- `DT <- b` (R40). -/
def State.setDT (s : State) (b : Byte) : State := { s with DT := b }

/-- `ST <- b` (R40). -/
def State.setST (s : State) (b : Byte) : State := { s with ST := b }

/-- Replace the stack. -/
def State.setStack (s : State) (st : List Word) : State := { s with stack := st }

/-- Replace the framebuffer. -/
def State.setFb (s : State) (f : Framebuffer) : State := { s with fb := f }

/-- Replace memory. -/
def State.setMem (s : State) (m : Memory) : State := { s with mem := m }

/-- Replace the status. -/
def State.setStatus (s : State) (st : Status) : State := { s with status := st }

/-- Replace the inputs a step samples. -/
def State.setInputs (s : State) (inp : StepInputs) : State := { s with inputs := inp }

/-- Replace what the host is known to do next. -/
def State.setMoves (s : State) (ms : List HostMove) : State := { s with moves := ms }

/-- A free move of the host has been drawn (log entry 3). -/
def State.countMove (s : State) : State := { s with movesDrawn := s.movesDrawn + 1 }

/-- The host asks for a step before all else, with the inputs State holds. -/
def State.requestFirst (s : State) : State := s.setMoves (.request s.inputs :: s.moves)

/-- Record the answer on the interface (R14). -/
def State.setAnswer (s : State) (a : Option Answer) : State := { s with answer := a }

/-- The key-press event has been taken (R277). -/
def State.consumeEvent (s : State) : State := { s with inputs := { s.inputs with keyEvent := none } }

/-- `V[k] <- b0`, `V[k+1] <- b1`, … (R255). -/
def loadRegsFrom : Vector Byte 16 → Nat → List Byte → Vector Byte 16
  | v, _, [] => v
  | v, k, b :: bs => loadRegsFrom (v.setIfInBounds k b) (k + 1) bs

/-- Replace the whole register file. -/
def State.setV (s : State) (v : Vector Byte 16) : State := { s with V := v }

/-! ### The stack (R37, R38) -/

/-- `Push(a)`: none is `StackOverflow`. -/
def push (st : List Word) (a : Word) : Option (List Word) :=
  if st.length < Config.stackCap then some (a :: st) else none

/-- `Pop()`: none is `StackUnderflow`. -/
def pop : List Word → Option (Word × List Word)
  | [] => none
  | a :: rest => some (a, rest)

/-! ### The framebuffer (41_display.md) -/

/-- `FbGet(x, y)` (R173). -/
def fbGet (f : Framebuffer) (x : Fin 64) (y : Fin 32) : Bool := f[y.val][x.val]

/-- `FbClear()` (R171). -/
def fbClear : Framebuffer := Vector.replicate 32 (Vector.replicate 64 false)

/-- Toggle one pixel. -/
def fbToggle (f : Framebuffer) (x : Fin 64) (y : Fin 32) : Framebuffer :=
  f.set y.val (f[y.val].set x.val (!fbGet f x y))

/-- A column, modulo the width (R172). -/
def fbCol (x : Nat) : Fin 64 := ⟨x % 64, Nat.mod_lt _ (by decide)⟩

/-- A row, modulo the height (R172). -/
def fbRow (y : Nat) : Fin 32 := ⟨y % 32, Nat.mod_lt _ (by decide)⟩

/-- One sprite bit that is 1: note a collision if the pixel is on, then toggle it (R172). -/
def fbTouch (x : Fin 64) (y : Fin 32) (acc : Framebuffer × Bool) : Framebuffer × Bool :=
  (fbToggle acc.1 x y, acc.2 || fbGet acc.1 x y)

/-- The inner loop of `FbDraw`, from bit `b` on, `k` bits left: bit `7 - b` of the row byte is the pixel at column
`x + b` (R172). -/
def fbDrawBits (x y : Nat) (row : Byte) : Nat → Nat → Framebuffer × Bool → Framebuffer × Bool
  | _, 0, acc => acc
  | b, k + 1, acc =>
    fbDrawBits x y row (b + 1) k (if row.getLsbD (7 - b) then fbTouch (fbCol (x + b)) (fbRow y) acc else acc)

/-- The outer loop of `FbDraw`: one row of the sprite after another, from screen row `y` on (R172). -/
def fbDrawRows (x : Nat) : Nat → List Byte → Framebuffer × Bool → Framebuffer × Bool
  | _, [], acc => acc
  | y, row :: rows, acc => fbDrawRows x (y + 1) rows (fbDrawBits x y row 0 8 acc)

/-- `FbDraw(x, y, rows)`: the new framebuffer and the collision bit (R172). -/
def fbDraw (f : Framebuffer) (x y : Byte) (rows : List Byte) : Framebuffer × Bool :=
  fbDrawRows x.toNat y.toNat rows (f, false)

/-! ### The ends of a step -/

/-- The step completes: its effects are committed and it answers `Ok` (R145). -/
def complete (s : State) : Result := .next (s.setAnswer (some .ok))

/-- The step holds: nothing changes and it answers `Hold` (R147). -/
def hold (s : State) : Result := .next (s.setAnswer (some .hold))

/-- Raising an error (R146, R305): of `s`, the state before the step, only the status changes, to Halted with the record;
the step answers `Err`. `word` is the fetched word, none if the fetch failed. -/
def raise (s : State) (word : Option Word) (kind : Fault) (addr : Option Nat) : Result :=
  let e : ErrRecord := { kind := kind, pc := s.PC, word := word, addr := addr }
  .next ((s.setStatus (.halted e)).setAnswer (some (.err e)))

/-- The numeric code of an error kind (R300; the codes are the spec's own, D37). -/
def Fault.code : Fault → Nat
  | .outOfBounds => 1
  | .stackOverflow => 2
  | .stackUnderflow => 3
  | .unknownOpcode => 4
  | .unsupportedOperation => 5

end Sys2Proof.Machine
end

