-- ==== Sys2Proof/Machine/Operands.lean ====
section
/-! DEFINITION. The operand forms: immediates, the shift source, index plus offset, the key lookup, digits and register
runs. -/

namespace Sys2Proof.Machine

/-- `zext_16(NNN)` (R102). -/
def addrOperand (nnn : Addr12) : Word := nnn.setWidth 16

/-- `zext_16` of a register value (R198, R251). -/
def zextByte (b : Byte) : Word := b.setWidth 16

/-- The source of `8XY6` and `8XYE`: V[X], or V[Y] if `SHIFT_SOURCE` = VY (R228, R230). -/
def State.shiftOperand (s : State) (x y : Reg) : Byte :=
  match s.shiftSource with
  | .vx => s.reg x
  | .vy => s.reg y

/-- The address of byte 0 of an access through I, an unbounded natural number (R74, R256). -/
def State.indexAddr (s : State) : Nat := s.I.toNat

/-- The pressed answer for the key index `k`: the key state for 0..15, else the free input (R270). -/
def State.keyPressed (s : State) (k : Byte) : Bool :=
  if h : k.toNat < 16 then s.inputs.keys[k.toNat] else s.inputs.keyOob

/-- The three decimal digits of a byte, hundreds first (R253; the order is the spec's decision D17). -/
def bcdDigits (v : Byte) : List Byte :=
  [BitVec.ofNat 8 (v.toNat / 100), BitVec.ofNat 8 (v.toNat / 10 % 10), BitVec.ofNat 8 (v.toNat % 10)]

/-- V0..V[X], in order (R254). -/
def State.regsUpTo (s : State) (x : Reg) : List Byte := s.V.toList.take (x.val + 1)

/-- `FONT_BASE + digit * 5`, mod 65536 (R252). -/
def State.glyphAddr (s : State) (digit : Byte) : Word :=
  BitVec.ofNat 16 (s.fontBase.toNat + digit.toNat * Config.fontStride)

end Sys2Proof.Machine
end

