-- ==== Sys2Proof/Machine/Flags.lean ====
section
/-! DEFINITION. Every flag computation (R219), and the write of a result and its flag, the flag last (R217). -/

namespace Sys2Proof.Machine

/-- `b2u` (R10): 1 for true, 0 for false. -/
def b2u (t : Bool) : Byte := if t then 1#8 else 0#8

/-- The carry of an addition: `a + b > 255` (R219, R226). -/
def carry (a b : Byte) : Bool := decide (255 < a.toNat + b.toNat)

/-- The flag of `a - b`: no borrow, `a ≥ b` (R219, R227, R229). -/
def noBorrow (a b : Byte) : Bool := decide (b.toNat ≤ a.toNat)

/-- The bit a right shift by one shifts out: bit 0 (R228). -/
def bitOutRight (a : Byte) : Bool := a.getLsbD 0

/-- The bit a left shift by one shifts out: bit 7 (R230). -/
def bitOutLeft (a : Byte) : Bool := a.getLsbD 7

/-- `V[X] <- r`, then `V[F] <- b2u(t)`: with X = F the flag stays (R217). -/
def State.writeWithFlag (s : State) (x : Reg) (r : Byte) (t : Bool) : State :=
  (s.writeReg x r).writeReg regF (b2u t)

end Sys2Proof.Machine
end

