-- ==== Sys2Proof/Machine/Alu.lean ====
section
/-! DEFINITION. The register and ALU instructions (43_alu.md). Operands are read from `s`, the state before any write
(R216). -/

namespace Sys2Proof.Machine

/-- `LD Vx, byte` (R220). -/
def execLdByte (x : Reg) (nn : Byte) (s : State) : Result := complete (s.advance.writeReg x nn)

/-- `ADD Vx, byte` (R221): no flag. -/
def execAddByte (x : Reg) (nn : Byte) (s : State) : Result := complete (s.advance.writeReg x (s.reg x + nn))

/-- `LD Vx, Vy` (R222). -/
def execLdReg (x y : Reg) (s : State) : Result := complete (s.advance.writeReg x (s.reg y))

/-- `OR Vx, Vy` (R223). -/
def execOrReg (x y : Reg) (s : State) : Result := complete (s.advance.writeReg x (s.reg x ||| s.reg y))

/-- `AND Vx, Vy` (R224). -/
def execAndReg (x y : Reg) (s : State) : Result := complete (s.advance.writeReg x (s.reg x &&& s.reg y))

/-- `XOR Vx, Vy` (R225). -/
def execXorReg (x y : Reg) (s : State) : Result := complete (s.advance.writeReg x (s.reg x ^^^ s.reg y))

/-- `ADD Vx, Vy` (R226). -/
def execAddReg (x y : Reg) (s : State) : Result :=
  complete (s.advance.writeWithFlag x (s.reg x + s.reg y) (carry (s.reg x) (s.reg y)))

/-- `SUB Vx, Vy` (R227): V[X] - V[Y]. -/
def execSubReg (x y : Reg) (s : State) : Result :=
  complete (s.advance.writeWithFlag x (s.reg x - s.reg y) (noBorrow (s.reg x) (s.reg y)))

/-- `SHR Vx, Vy` (R228). -/
def execShr (x y : Reg) (s : State) : Result :=
  complete (s.advance.writeWithFlag x (s.shiftOperand x y >>> 1) (bitOutRight (s.shiftOperand x y)))

/-- `SUBN Vx, Vy` (R229): V[Y] - V[X]. -/
def execSubn (x y : Reg) (s : State) : Result :=
  complete (s.advance.writeWithFlag x (s.reg y - s.reg x) (noBorrow (s.reg y) (s.reg x)))

/-- `SHL Vx, Vy` (R230). -/
def execShl (x y : Reg) (s : State) : Result :=
  complete (s.advance.writeWithFlag x (s.shiftOperand x y <<< 1) (bitOutLeft (s.shiftOperand x y)))

/-- `RND Vx, byte` (R231): `rand` is the step's input, a free draw. -/
def execRnd (x : Reg) (nn : Byte) (s : State) : Result := complete (s.advance.writeReg x (s.inputs.rand &&& nn))

end Sys2Proof.Machine
end

