-- ==== Sys2Proof/Machine/Display.lean ====
section
/-! DEFINITION. The display instructions (41_display.md). -/

namespace Sys2Proof.Machine

/-- `CLS` (R174). -/
def execCls (s : State) : Result := complete (s.advance.setFb fbClear)

/-- `DRW Vx, Vy, nibble` (R175): the rows are checked and read, V[X] and V[Y] read, then the draw, then VF. -/
def execDrw (x y : Reg) (n : Fin 16) (s : State) : Result :=
  match firstOutOfRange s.indexAddr n.val with
  | some a => raise s (some (encode (.drw x y n))) .outOfBounds (some a)
  | none =>
    let r := fbDraw s.fb (s.reg x) (s.reg y) (Memory.readBytes s.mem s.indexAddr n.val)
    complete ((s.advance.setFb r.1).writeReg regF (b2u r.2))

end Sys2Proof.Machine
end

