-- ==== Sys2Proof/Machine/Flow.lean ====
section
/-! DEFINITION. The control-flow instructions (42_flow.md). -/

namespace Sys2Proof.Machine

/-- `RET` (R190). -/
def execRet (s : State) : Result :=
  match pop s.stack with
  | none => raise s (some (encode .ret)) .stackUnderflow none
  | some (a, rest) => complete ((s.setStack rest).setPC a)

/-- `SYS addr` (R191): it always raises `UnsupportedOperation`. -/
def execSys (nnn : Addr12) (s : State) : Result :=
  raise s (some (encode (.sys nnn))) .unsupportedOperation none

/-- `JP addr` (R192). -/
def execJp (nnn : Addr12) (s : State) : Result := complete (s.setPC (addrOperand nnn))

/-- `CALL addr` (R193): it pushes the advanced PC. -/
def execCall (nnn : Addr12) (s : State) : Result :=
  match push s.stack s.advance.PC with
  | none => raise s (some (encode (.call nnn))) .stackOverflow none
  | some st => complete ((s.setStack st).setPC (addrOperand nnn))

/-- `SE Vx, byte` (R194). -/
def execSeByte (x : Reg) (nn : Byte) (s : State) : Result := complete (s.advance.skipIf (s.reg x == nn))

/-- `SNE Vx, byte` (R195). -/
def execSneByte (x : Reg) (nn : Byte) (s : State) : Result := complete (s.advance.skipIf (s.reg x != nn))

/-- `SE Vx, Vy` (R196). -/
def execSeReg (x y : Reg) (s : State) : Result := complete (s.advance.skipIf (s.reg x == s.reg y))

/-- `SNE Vx, Vy` (R197). -/
def execSneReg (x y : Reg) (s : State) : Result := complete (s.advance.skipIf (s.reg x != s.reg y))

/-- `JP V0, addr` (R198): no mask. -/
def execJpV0 (nnn : Addr12) (s : State) : Result := complete (s.setPC (addrOperand nnn + zextByte (s.reg 0)))

end Sys2Proof.Machine
end

