-- ==== Sys2Proof/Machine/Index.lean ====
section
/-! DEFINITION. The index register and register-memory instructions (44_index_memory.md). FX33, FX55 and FX65 leave I
unchanged (R256). -/

namespace Sys2Proof.Machine

/-- `LD I, addr` (R250). -/
def execLdI (nnn : Addr12) (s : State) : Result := complete (s.advance.setI (addrOperand nnn))

/-- `ADD I, Vx` (R251): mod 65536, no flag. -/
def execAddI (x : Reg) (s : State) : Result := complete (s.advance.setI (s.I + zextByte (s.reg x)))

/-- `LD F, Vx` (R252). -/
def execLdF (x : Reg) (s : State) : Result := complete (s.advance.setI (s.glyphAddr (s.reg x)))

/-- `LD B, Vx` (R253). -/
def execLdB (x : Reg) (s : State) : Result :=
  match firstOutOfRange s.indexAddr 3 with
  | some a => raise s (some (encode (.ldB x))) .outOfBounds (some a)
  | none => complete (s.advance.setMem (Memory.writeBytes s.mem s.indexAddr (bcdDigits (s.reg x))))

/-- `LD [I], Vx` (R254). -/
def execStRegs (x : Reg) (s : State) : Result :=
  match firstOutOfRange s.indexAddr (x.val + 1) with
  | some a => raise s (some (encode (.stRegs x))) .outOfBounds (some a)
  | none => complete (s.advance.setMem (Memory.writeBytes s.mem s.indexAddr (s.regsUpTo x)))

/-- `LD Vx, [I]` (R255). -/
def execLdRegs (x : Reg) (s : State) : Result :=
  match firstOutOfRange s.indexAddr (x.val + 1) with
  | some a => raise s (some (encode (.ldRegs x))) .outOfBounds (some a)
  | none => complete (s.advance.setV (loadRegsFrom s.V 0 (Memory.readBytes s.mem s.indexAddr (x.val + 1))))

end Sys2Proof.Machine
end

