-- ==== Sys2Proof/Machine/KeysTimers.lean ====
section
/-! DEFINITION. The key and timer instructions (45_keys_timers.md). -/

namespace Sys2Proof.Machine

/-- `SKP Vx` (R270). -/
def execSkp (x : Reg) (s : State) : Result := complete (s.advance.skipIf (s.keyPressed (s.reg x)))

/-- `SKNP Vx` (R271). -/
def execSknp (x : Reg) (s : State) : Result := complete (s.advance.skipIf (!s.keyPressed (s.reg x)))

/-- `LD Vx, DT` (R272). -/
def execLdVxDT (x : Reg) (s : State) : Result := complete (s.advance.writeReg x s.DT)

/-- `LD Vx, K` (R273): without an event the step holds; with one, V[X] gets the key and the event is consumed. -/
def execLdVxK (x : Reg) (s : State) : Result :=
  match s.inputs.keyEvent with
  | none => hold s
  | some k => complete ((s.advance.writeReg x (BitVec.ofNat 8 k.val)).consumeEvent)

/-- `LD DT, Vx` (R274). -/
def execLdDTVx (x : Reg) (s : State) : Result := complete (s.advance.setDT (s.reg x))

/-- `LD ST, Vx` (R275). -/
def execLdSTVx (x : Reg) (s : State) : Result := complete (s.advance.setST (s.reg x))

end Sys2Proof.Machine
end

