-- ==== Sys2Proof/Machine/HostActions.lean ====
section
/-! DEFINITION. The host's actions between two steps (R16): `Reset`, `Load` and `Tick`. `FbGet` is `fbGet`. -/

namespace Sys2Proof.Machine

/-- `Reset()` (R341): memory and the parameters keep their values; no answer is outstanding after it. -/
def hostReset (s : State) : State :=
  { s with
    V      := Vector.replicate 16 0x00#8
    I      := 0x0000#16
    PC     := BitVec.ofNat 16 Config.progBase
    stack  := []
    fb     := fbClear
    DT     := 0x00#8
    ST     := 0x00#8
    status := .running
    answer := none }

/-- `Load(bytes)` (R345): none is `ProgramTooLarge`, and nothing is written. -/
def hostLoad (bytes : List Byte) (s : State) : Option State :=
  if Config.loadMax < bytes.length then none
  else some ((s.setMem (Memory.writeBytes s.mem Config.progBase bytes)).setAnswer none)

/-- A timer's tick: down by one, stopping at 0 (R278). -/
def tickTimer (b : Byte) : Byte := if b = 0#8 then b else b - 1#8

/-- `Tick()` (R278). -/
def hostTick (s : State) : State := ((s.setDT (tickTimer s.DT)).setST (tickTimer s.ST)).setAnswer none

/-- Construction with given parameters and INIT_MEM (R340, D33). -/
def construct (fontBase : Word) (shiftSource : ShiftSource) (initMem : Memory) : State :=
  { State.reset with fontBase := fontBase, shiftSource := shiftSource, mem := initMem }

/-- A `Load` by the host: a failed one changes nothing but the loader's answer. -/
def applyLoad (bytes : List Byte) (s : State) : State :=
  match hostLoad bytes s with
  | some t => t
  | none => s.setAnswer (some .programTooLarge)

end Sys2Proof.Machine
end

