-- ==== Sys2Proof/Machine/Cycle.lean ====
section
/-! DEFINITION. The fetch-advance-decode-execute step (40_step.md) with its answer, and one move of the machine and its
host. -/

namespace Sys2Proof.Machine

/-- Fetch, decode and execute at PC (R140–R143). The advance (R141) is taken inside the meanings. Errors in phase order
(R148): the fetch's, the decoder's, the execute phase's. -/
def runInstruction (s : State) : Result :=
  match fetchWord s.mem s.PC.toNat with
  | .error a => raise s none .outOfBounds (some a)
  | .ok w =>
    match decode w with
    | .error _ => raise s (some w) .unknownOpcode none
    | .ok i => exec i s

/-- A requested step (R149): a halted machine refuses it and nothing changes (R144). -/
def answerRequest (s : State) : Result :=
  match s.status with
  | .halted e => .next (s.setAnswer (some (.refused e)))
  | .running => runInstruction s

/-- After a step request the inputs it sampled are spent: those State then holds are free again (R15; log entry 4). -/
def State.drawInputs (s : State) : State :=
  { s with inputs := Config.freeInputs s.draws, draws := s.draws + 1 }

/-- `drawInputs` on an outcome. -/
def spendInputs : Result → Result
  | .next t => .next t.drawInputs
  | .fault r => .fault r
  | .refused r => .refused r

/-- What the host does next (R16): the next move known by name or, with none, a free one, so that a model run admits any
interleaving of steps and host actions (R355; log entry 3). -/
def State.nextMove (s : State) : HostMove :=
  match s.moves with
  | m :: _ => m
  | [] => Config.freeMoves s.movesDrawn

/-- The state once the next move is taken off the plan, or drawn. -/
def State.moveTaken (s : State) : State :=
  match s.moves with
  | _ :: rest => s.setMoves rest
  | [] => s.countMove

/-- One move of the host: a step request that samples the inputs it brings (R14, R15), or an action between two steps
(R16). -/
def performMove (m : HostMove) (s : State) : Result :=
  match m with
  | .request inp => spendInputs (answerRequest (s.setInputs inp))
  | .reset => .next (hostReset s)
  | .load bytes => .next (applyLoad bytes s)
  | .tick => .next (hostTick s)

/-- One move of the machine and its host (log entry 3). -/
def advanceMachine (s : State) : Result := performMove s.nextMove s.moveTaken

/-- Where `placeInstruction` puts an instruction: at PC, or at 0x200 where no word can be fetched at PC. -/
def placeAddr (s : State) : Nat := if s.PC.toNat < Config.lastAddr then s.PC.toNat else Config.progBase

/-- The state with the bytes at the fetch address, ready to run them: Running, and the host asks for a step at once. -/
def placeInstruction (s : State) (bytes : List Byte) : State :=
  State.requestFirst { s with
    PC     := BitVec.ofNat 16 (placeAddr s)
    mem    := Memory.writeBytes s.mem (placeAddr s) bytes
    status := .running }

end Sys2Proof.Machine
end

