-- ==== Sys2Proof/Machine/Step.lean ====
section
/-! DEFINITION. The step of the model. -/

namespace Sys2Proof.Machine

/-- One move of the machine and its host. -/
def step (s : State) : Host.Outcome State Fault Refusal := advanceMachine s

/-- `s` with a word of the opcode table stored where the next step fetches (log entry 8). -/
def State.withFetchWord (s : State) (nbits w : Nat) : State := placeInstruction s (tableWordBytes nbits w)

end Sys2Proof.Machine
end

