-- ==== Sys2Proof/Safety.lean ====
section
/-! DEFINITION. The terms claims are stated in: the invariant of the machine, the bound on PC, the end of a run, the state of
the CORE alone, and the sets of instructions the whole-machine rules name. -/

namespace Sys2Proof.Machine

/-- The record of a halted machine agrees with its state and with R300's table: its pc is PC (R146), an address above 0xFFF
goes with `OutOfBounds` only, and a word is missing only where the fetch failed (R140). -/
def recordOk (s : State) (e : ErrRecord) : Prop :=
  e.pc = s.PC ∧
  (e.kind = .outOfBounds ↔ e.addr.isSome = true) ∧
  (∀ a, e.addr = some a → Config.lastAddr < a) ∧
  (e.word = none → e.kind = .outOfBounds ∧ Config.lastAddr ≤ e.pc.toNat)

/-- What every step keeps: memory in canonical form and in range, at most 16 stack entries (R37), a sound error record. -/
structure State.Inv (s : State) : Prop where
  mem    : Memory.wf s.mem = true
  stack  : s.stack.length ≤ Config.stackCap
  record : ∀ e, s.status = .halted e → recordOk s e

/-- The bound of R36: PC stays at 0x10FE or below, and a return address at 0x1000 or below. -/
structure State.PcBounded (s : State) : Prop where
  pc    : s.PC.toNat ≤ 0x10FE
  stack : ∀ a ∈ s.stack, a.toNat ≤ 0x1000

/-- The error end of a run (R151). -/
def State.errorEnd (s : State) : Prop := ∃ e, s.status = .halted e

/-- The normal end of a run (R151): Running, and the word at PC is a jump to PC. -/
def State.normalEnd (s : State) : Prop :=
  s.status = .running ∧ ∃ nnn, fetchWord s.mem s.PC.toNat = .ok (wordNNN 0x1#4 nnn) ∧ nnn.setWidth 16 = s.PC

/-- The two states hold the same CORE state (10_state.md) and the same parameters: they differ at most in the model's own
fields for inputs, host moves and answers. -/
structure SameCore (s t : State) : Prop where
  V           : t.V = s.V
  I           : t.I = s.I
  PC          : t.PC = s.PC
  stack       : t.stack = s.stack
  DT          : t.DT = s.DT
  ST          : t.ST = s.ST
  fb          : t.fb = s.fb
  mem         : t.mem = s.mem
  status      : t.status = s.status
  fontBase    : t.fontBase = s.fontBase
  shiftSource : t.shiftSource = s.shiftSource

/-- The next move of the machine is the host's `Reset`. -/
def State.resetNext (s : State) : Prop := s.nextMove = .reset

/-- The next move of the machine is a step request. -/
def State.requestNext (s : State) : Prop := ∃ inp, s.nextMove = .request inp

/-- The host's move `j` moves from now: the plan's, and after it the free ones (log entry 3). Every host is such a
sequence. -/
def State.hostMove (s : State) (j : Nat) : HostMove :=
  match s.moves[j]? with
  | some m => m
  | none => Config.freeMoves (s.movesDrawn + (j - s.moves.length))

/-- The state as a requested step sees it: the request taken and its inputs sampled (R15). -/
def State.sampled (s : State) : State :=
  match s.nextMove with
  | .request inp => s.moveTaken.setInputs inp
  | .reset | .load _ | .tick => s

/-- The six instructions that write VF as a flag (R32). -/
def writesFlag : Instr → Bool
  | .addReg _ _ | .subReg _ _ | .shr _ _ | .subn _ _ | .shl _ _ | .drw _ _ _ => true
  | .cls | .ret | .sys _ | .jp _ | .call _ | .seByte _ _ | .sneByte _ _ | .seReg _ _ | .ldByte _ _ | .addByte _ _
  | .ldReg _ _ | .orReg _ _ | .andReg _ _ | .xorReg _ _ | .sneReg _ _ | .ldI _ | .jpV0 _ | .rnd _ _ | .skp _ | .sknp _
  | .ldVxDT _ | .ldVxK _ | .ldDTVx _ | .ldSTVx _ | .addI _ | .ldF _ | .ldB _ | .stRegs _ | .ldRegs _ => false

/-- The general register `r` is a destination of the instruction: V[X], the run V0..V[X] of `FX65`, VF of a flag
writer. -/
def isDest (r : Reg) : Instr → Prop
  | .ldByte x _ | .addByte x _ | .ldReg x _ | .orReg x _ | .andReg x _ | .xorReg x _ | .rnd x _ | .ldVxDT x | .ldVxK x => r = x
  | .addReg x _ | .subReg x _ | .shr x _ | .subn x _ | .shl x _ => r = x ∨ r = regF
  | .drw _ _ _ => r = regF
  | .ldRegs x => r ≤ x
  | .cls | .ret | .sys _ | .jp _ | .call _ | .seByte _ _ | .sneByte _ _ | .seReg _ _ | .sneReg _ _ | .ldI _ | .jpV0 _ | .skp _
  | .sknp _ | .ldDTVx _ | .ldSTVx _ | .addI _ | .ldF _ | .ldB _ | .stRegs _ => False

/-- The sprite at (x, y) with these row bytes has a 1 bit on the pixel (px, py) (R172). -/
def SpriteHit (x y : Byte) (rows : List Byte) (px : Fin 64) (py : Fin 32) : Prop :=
  ∃ r, ∃ h : r < rows.length, ∃ b, b < 8 ∧
    px.val = (x.toNat + b) % 64 ∧ py.val = (y.toNat + r) % 32 ∧ rows[r].getLsbD (7 - b) = true

/-- When the execute phase raises an error, and which kind (R301–R304, R307). -/
def ErrorCase (s : State) (kind : Fault) : Instr → Prop
  | .ret => s.stack = [] ∧ kind = .stackUnderflow
  | .sys _ => kind = .unsupportedOperation
  | .call _ => 16 ≤ s.stack.length ∧ kind = .stackOverflow
  | .drw _ _ n => 1 ≤ n.val ∧ 0xFFF < s.I.toNat + n.val - 1 ∧ kind = .outOfBounds
  | .ldB _ => 0xFFF < s.I.toNat + 2 ∧ kind = .outOfBounds
  | .stRegs x => 0xFFF < s.I.toNat + x.val ∧ kind = .outOfBounds
  | .ldRegs x => 0xFFF < s.I.toNat + x.val ∧ kind = .outOfBounds
  | .cls | .jp _ | .seByte _ _ | .sneByte _ _ | .seReg _ _ | .sneReg _ _ | .ldByte _ _ | .addByte _ _ | .ldReg _ _ | .orReg _ _
  | .andReg _ _ | .xorReg _ _ | .addReg _ _ | .subReg _ _ | .shr _ _ | .subn _ _ | .shl _ _ | .ldI _ | .jpV0 _ | .rnd _ _ | .skp _
  | .sknp _ | .ldVxDT _ | .ldVxK _ | .ldDTVx _ | .ldSTVx _ | .addI _ | .ldF _ => False

end Sys2Proof.Machine
end

