-- ==== Sys2Proof/Certificates/Slice0/Obligations.lean ====
section
/-! DEFINITION. The statements for the provers. Each cites the rules of spec/ it formalises. "D<n>" in a docstring names a
decision the spec marks as its own (92_eei_decisions.md); "log entry <n>" one of this model's (notes/assumptions). -/

open Sys2Proof Sys2Proof.Machine

/-! ### Encoding and decoding -/

/-- Sample words, at least one of each of the sixteen families 0 to F, written out from R108's patterns, decode to their
instructions. -/
def Obligations.SampleWordsDecode : Prop :=
  decode 0x00E0#16 = .ok .cls ∧ decode 0x00EE#16 = .ok .ret ∧ decode 0x01E0#16 = .ok (.sys 0x1E0#12) ∧
  decode 0x1234#16 = .ok (.jp 0x234#12) ∧ decode 0x2300#16 = .ok (.call 0x300#12) ∧
  decode 0x3A42#16 = .ok (.seByte 0xA 0x42#8) ∧ decode 0x4B17#16 = .ok (.sneByte 0xB 0x17#8) ∧
  decode 0x5120#16 = .ok (.seReg 1 2) ∧ decode 0x6CE9#16 = .ok (.ldByte 0xC 0xE9#8) ∧
  decode 0x7203#16 = .ok (.addByte 2 0x03#8) ∧ decode 0x8F16#16 = .ok (.shr 0xF 1) ∧ decode 0x812E#16 = .ok (.shl 1 2) ∧
  decode 0x9120#16 = .ok (.sneReg 1 2) ∧ decode 0xA2F0#16 = .ok (.ldI 0x2F0#12) ∧ decode 0xBFFF#16 = .ok (.jpV0 0xFFF#12) ∧
  decode 0xC30F#16 = .ok (.rnd 3 0x0F#8) ∧ decode 0xD125#16 = .ok (.drw 1 2 5) ∧ decode 0xE19E#16 = .ok (.skp 1) ∧
  decode 0xF255#16 = .ok (.stRegs 2) ∧ decode 0xF265#16 = .ok (.ldRegs 2)

/-- Decoding the word of any well-formed instruction gives it back, at every value of every operand (R103, R108). -/
def Obligations.DecodeInvertsEncode : Prop :=
  ∀ i : Instr, i.wf = true → decode (encode i) = .ok i

/-- A word that decodes is the word of the instruction it decodes to, which is well-formed: no bit is dropped, and the word
an error record names is the fetched one. -/
def Obligations.EncodeInvertsDecode : Prop :=
  ∀ (w : Word) (i : Instr), decode w = .ok i → encode i = w ∧ i.wf = true

/-- R110's table (D4, D5, D6): exactly these words decode to `UnknownOpcode`. -/
def Obligations.UnknownWordsAreExactlyTheIllegalOnes : Prop :=
  ∀ w : Word, decode w = .error (.unknownOpcode w) ↔
    ((w.toNat / 4096 = 0x5 ∧ w.toNat % 16 ≠ 0) ∨
     (w.toNat / 4096 = 0x8 ∧ w.toNat % 16 ∈ [0x8, 0x9, 0xA, 0xB, 0xC, 0xD, 0xF]) ∨
     (w.toNat / 4096 = 0x9 ∧ w.toNat % 16 ≠ 0) ∨
     (w.toNat / 4096 = 0xE ∧ w.toNat % 256 ∉ [0x9E, 0xA1]) ∨
     (w.toNat / 4096 = 0xF ∧ w.toNat % 256 ∉ [0x07, 0x0A, 0x15, 0x18, 0x1E, 0x29, 0x33, 0x55, 0x65]))

/-! ### The step -/

/-- R140–R143: when the next move is a step request and the machine is Running, and the word at PC decodes to i, the step is
the execute phase of i on the state with the request's inputs sampled; afterwards the sampled inputs are spent (log entry 4).
The move past the word is inside exec. -/
def Obligations.StepRunsTheDecodedInstruction : Prop :=
  ∀ (s : State) (w : Word) (i : Instr), s.requestNext → s.status = .running →
    fetchWord s.mem s.PC.toNat = .ok w → decode w = .ok i →
    step s = spendInputs (exec i s.sampled)

/-- R73: the word read composes two byte reads, the high byte first, each bounds-checked without wrap. -/
def Obligations.WordReadIsBigEndianAndChecked : Prop :=
  ∀ (m : Memory) (a : Nat), fetchWord m a =
    if 0xFFF < a then .error a
    else if 0xFFF < a + 1 then .error (a + 1)
    else .ok (BitVec.ofNat 16 ((Memory.read m a).toNat * 256 + (Memory.read m (a + 1)).toNat))

/-- R140, R142, R146 (D12, D13): a requested step whose fetch fails halts with `OutOfBounds`, no word and the address; one
whose word is in no row halts with `UnknownOpcode` and the word. Nothing else of the CORE changes. -/
def Obligations.FetchAndDecodeErrorsHalt : Prop :=
  ∀ s : State, s.requestNext → s.status = .running →
    (∀ a, fetchWord s.mem s.PC.toNat = .error a →
      step s = .next ({ s.sampled with
        status := .halted ⟨.outOfBounds, s.PC, none, some a⟩,
        answer := some (.err ⟨.outOfBounds, s.PC, none, some a⟩) } : State).drawInputs) ∧
    (∀ w, fetchWord s.mem s.PC.toNat = .ok w → decode w = .error (.unknownOpcode w) →
      step s = .next ({ s.sampled with
        status := .halted ⟨.unknownOpcode, s.PC, some w, none⟩,
        answer := some (.err ⟨.unknownOpcode, s.PC, some w, none⟩) } : State).drawInputs)

/-- R144 (D14): a step requested of a halted machine answers `Refused(e)` and changes nothing of the CORE. -/
def Obligations.HaltedMachineRefusesSteps : Prop :=
  ∀ (s : State) (e : ErrRecord), s.requestNext → s.status = .halted e →
    ∃ t, step s = .next t ∧ t.answer = some (.refused e) ∧ SameCore s t

/-- 40_step.md §2: in every state, reachable or not, a move answers a next state: no fault and no refusal of the model
(log entry 1). It uses up one move of the host and leaves what the host does afterwards as it was, planned or free (R16,
R355, D3; log entry 3). -/
def Obligations.EveryMoveAnswersANextState : Prop :=
  ∀ s : State, ∃ t, step s = .next t ∧ ∀ j, t.hostMove j = s.hostMove (j + 1)

/-- R146 (D12, D13): whichever instruction raises an error, the state after it is the state before but for the status and
the answer; the record holds PC0, the instruction's word, and an address exactly for `OutOfBounds`. -/
def Obligations.ExecuteErrorsArePrecise : Prop :=
  ∀ (i : Instr) (s t : State) (e : ErrRecord), exec i s = .next t → t.answer = some (.err e) →
    t = { s with status := .halted e, answer := some (.err e) } ∧
    e.pc = s.PC ∧ e.word = some (encode i) ∧ (e.kind = .outOfBounds ↔ e.addr.isSome = true)

/-- R147 (D19): the execute phase holds exactly for `FX0A` without a key-press event, and then changes nothing. -/
def Obligations.HoldsExactlyWithoutAKeyEvent : Prop :=
  ∀ (i : Instr) (s t : State), exec i s = .next t →
    (t.answer = some .hold ↔ (∃ x, i = .ldVxK x) ∧ s.inputs.keyEvent = none) ∧
    (t.answer = some .hold → t = { s with answer := some .hold })

/-- R301, R302, R304, R307: the execute phase raises an error exactly in the listed cases and with the listed kind: `2NNN`
on a full stack, `00EE` on an empty one, `0NNN` always (the only operation that always fails), the four memory instructions
past 0xFFF; no other instruction ever. That the addresses I + k of the four do not wrap is the spec's own decision D11 (log
entry 13), and that `EX9E` and `EXA1` raise no error for V[X] > 15 is its own decision D18 (log entry 17). -/
def Obligations.ExecuteErrorsExactlyWhen : Prop :=
  ∀ (i : Instr) (s t : State) (kind : Fault), exec i s = .next t →
    ((∃ e, t.answer = some (.err e) ∧ e.kind = kind) ↔ ErrorCase s kind i)

/-- R308, R309 (D14, D34): only the host's `Reset` leaves Halted, and until then the record stays the first error's. -/
def Obligations.OnlyResetLeavesHalted : Prop :=
  ∀ (s t : State) (e : ErrRecord), s.status = .halted e → step s = .next t →
    (s.resetNext ∧ t.status = .running) ∨ (¬ s.resetNext ∧ t.status = .halted e)

/-- R145, R311: from Running, a move leaves the machine Running, or it is a step that raised an error, and the status holds
that error. -/
def Obligations.OnlyErrorsHalt : Prop :=
  ∀ s t : State, s.status = .running → step s = .next t →
    t.status = .running ∨ ∃ e, t.status = .halted e ∧ t.answer = some (.err e)

/-! ### Invariants -/

/-- The state after reset meets both invariants. -/
def Obligations.ResetMeetsTheInvariants : Prop :=
  State.reset.Inv ∧ State.reset.PcBounded

/-- R47 (DT and ST: D21): what reset leaves. That memory reads 0x00 everywhere, and the inputs, are this model's choices (log
entries 4 and 5) and are not stated. -/
def Obligations.ResetStateHoldsTheResetValues : Prop :=
  (∀ x : Reg, State.reset.V[x.val] = 0#8) ∧ State.reset.I = 0#16 ∧ State.reset.PC = 0x200#16 ∧ State.reset.stack = [] ∧
  (∀ x y, fbGet State.reset.fb x y = false) ∧ State.reset.DT = 0#8 ∧ State.reset.ST = 0#8 ∧
  State.reset.status = .running

/-- Every move keeps the invariant: memory canonical and in range, at most 16 return addresses, a sound error record. -/
def Obligations.StepKeepsInv : Prop :=
  ∀ s t : State, s.Inv → step s = .next t → t.Inv

/-- R36: no move drives PC past 0x10FE, nor a return address past 0x1000. -/
def Obligations.StepKeepsPcBounded : Prop :=
  ∀ s t : State, s.PcBounded → step s = .next t → t.PcBounded

/-- The form of memory is canonical: two memories in that form that read alike at every address are the same data. -/
def Obligations.CanonicalMemoriesThatReadAlikeAreEqual : Prop :=
  ∀ m n : Memory, Memory.wf m = true → Memory.wf n = true → (∀ a, Memory.read m a = Memory.read n a) → m = n

/-! ### Frames over all instructions -/

/-- R32, R218 (D7): a general register, VF included, changes only as a destination of the instruction: V[X], the run V0..V[X]
of `FX65`, or VF for the six flag writers. -/
def Obligations.OnlyDestinationRegistersChange : Prop :=
  ∀ (i : Instr) (s t : State) (r : Reg), exec i s = .next t → ¬ isDest r i → t.V[r.val] = s.V[r.val]

/-- R34, R39, R40, R41: I is written only by `ANNN`, `FX1E`, `FX29`; DT only by `FX15`; ST only by `FX18`; the stack only by
`2NNN` and `00EE`; the framebuffer only by `00E0` and `DXYN`; the parameters by none. -/
def Obligations.SpecialStateChangesOnlyByItsInstructions : Prop :=
  ∀ (i : Instr) (s t : State), exec i s = .next t →
    (t.I = s.I ∨ (∃ nnn, i = .ldI nnn) ∨ (∃ x, i = .addI x) ∨ ∃ x, i = .ldF x) ∧
    (t.DT = s.DT ∨ ∃ x, i = .ldDTVx x) ∧
    (t.ST = s.ST ∨ ∃ x, i = .ldSTVx x) ∧
    (t.stack = s.stack ∨ i = .ret ∨ ∃ nnn, i = .call nnn) ∧
    (t.fb = s.fb ∨ i = .cls ∨ ∃ x y n, i = .drw x y n) ∧
    t.fontBase = s.fontBase ∧ t.shiftSource = s.shiftSource

/-- R77: every byte of memory reads as before, but the bytes `FX33` and `FX55` store at I. -/
def Obligations.OnlyStoredBytesChange : Prop :=
  ∀ (i : Instr) (s t : State) (a : Nat), exec i s = .next t →
    (∀ x, i = .ldB x → a < s.indexAddr ∨ s.indexAddr + 3 ≤ a) →
    (∀ x, i = .stRegs x → a < s.indexAddr ∨ s.indexAddr + (x.val + 1) ≤ a) →
    Memory.read t.mem a = Memory.read s.mem a

/-- R15: no instruction but `CXNN`, `EX9E`, `EXA1` and `FX0A` depends on the inputs of the step. -/
def Obligations.InputsMatterToFourInstructionsOnly : Prop :=
  ∀ (i : Instr) (s t : State) (inp : StepInputs), exec i s = .next t →
    (∀ x nn, i ≠ .rnd x nn) → (∀ x, i ≠ .skp x) → (∀ x, i ≠ .sknp x) → (∀ x, i ≠ .ldVxK x) →
    exec i { s with inputs := inp } = .next { t with inputs := inp }

/-- R40, R44: no instruction reads ST: from a state with another ST, every instruction but `FX18`, which overwrites it, gives
the same next state with that other ST. -/
def Obligations.NoInstructionReadsST : Prop :=
  ∀ (i : Instr) (s t : State) (b : Byte), exec i s = .next t →
    exec i { s with ST := b } = .next (match i with | .ldSTVx _ => t | _ => { t with ST := b })

/-! ### Display -/

/-- R171, R174: `00E0` turns every pixel off, moves past its word and changes nothing else. -/
def Obligations.ClsTurnsEveryPixelOff : Prop :=
  decode 0x00E0#16 = .ok .cls ∧
  ∀ s : State, ∃ f : Framebuffer, (∀ x y, fbGet f x y = false) ∧
    exec .cls s = .next { s with PC := s.PC + 2#16, fb := f, answer := some .ok }

/-- R172: `FbDraw` XORs the sprite into the framebuffer, pixel by pixel with both coordinates wrapped, and reports a
collision exactly when a pixel that was on is hit. The order of its loops does not matter. That every column wraps, and not
the start column alone, is how the spec settles conflict C11 (log entry 21). -/
def Obligations.FbDrawXorsTheSprite : Prop :=
  ∀ (f : Framebuffer) (x y : Byte) (rows : List Byte), rows.length ≤ 15 →
    (∀ px py, fbGet (fbDraw f x y rows).1 px py = true ↔ Xor' (fbGet f px py = true) (SpriteHit x y rows px py)) ∧
    ((fbDraw f x y rows).2 = true ↔ ∃ px py, fbGet f px py = true ∧ SpriteHit x y rows px py)

/-- R175 (D9, D11, D12, D35): `DXYN` draws the N bytes at I at (V[X], V[Y]), read before any write, and leaves the collision
in VF; where a byte lies past 0xFFF it halts with the lowest such address. -/
def Obligations.DrwDrawsTheSpriteAtI : Prop :=
  ∀ (x y : Reg) (n : Fin 16) (s : State),
    decode (wordXYN 0xD#4 x y n) = .ok (.drw x y n) ∧
    (n.val = 0 ∨ s.I.toNat + n.val ≤ 0x1000 →
      ∀ d, d = fbDraw s.fb s.V[x.val] s.V[y.val] ((List.range n.val).map (fun r => Memory.read s.mem (s.I.toNat + r))) →
      exec (.drw x y n) s = .next { s with
        PC := s.PC + 2#16, fb := d.1, V := s.V.set 15 (if d.2 = true then 1#8 else 0#8), answer := some .ok }) ∧
    (n.val ≠ 0 → 0x1000 < s.I.toNat + n.val →
      ∀ e, e = ⟨.outOfBounds, s.PC, some (wordXYN 0xD#4 x y n), some (max s.I.toNat 0x1000)⟩ →
      exec (.drw x y n) s = .next { s with status := .halted e, answer := some (.err e) })

/-! ### Control flow -/

/-- R190 (D12, D13): `00EE` pops PC; on an empty stack it halts with `StackUnderflow`. -/
def Obligations.RetPopsPc : Prop :=
  decode 0x00EE#16 = .ok .ret ∧
  ∀ s : State,
    (∀ a rest, s.stack = a :: rest →
      exec .ret s = .next { s with PC := a, stack := rest, answer := some .ok }) ∧
    (s.stack = [] → ∀ e, e = ⟨.stackUnderflow, s.PC, some 0x00EE#16, none⟩ →
      exec .ret s = .next { s with status := .halted e, answer := some (.err e) })

/-- R191 (D12, D13): `0NNN` but for `00E0` and `00EE` decodes to SYS, which halts with `UnsupportedOperation`. -/
def Obligations.SysHaltsUnsupported : Prop :=
  ∀ (nnn : Addr12) (s : State),
    (nnn ≠ 0x0E0#12 → nnn ≠ 0x0EE#12 → decode (wordNNN 0x0#4 nnn) = .ok (.sys nnn)) ∧
    ∀ e, e = ⟨.unsupportedOperation, s.PC, some (wordNNN 0x0#4 nnn), none⟩ →
      exec (.sys nnn) s = .next { s with status := .halted e, answer := some (.err e) }

/-- R192: `1NNN` sets PC to NNN and changes nothing else. -/
def Obligations.JpSetsPc : Prop :=
  ∀ (nnn : Addr12) (s : State),
    decode (wordNNN 0x1#4 nnn) = .ok (.jp nnn) ∧
    exec (.jp nnn) s = .next { s with PC := BitVec.ofNat 16 nnn.toNat, answer := some .ok }

/-- R193 (D12, D13, D30): `2NNN` pushes PC0 + 2 and sets PC to NNN; with 16 entries it halts with `StackOverflow`. -/
def Obligations.CallPushesTheReturnAddress : Prop :=
  ∀ (nnn : Addr12) (s : State),
    decode (wordNNN 0x2#4 nnn) = .ok (.call nnn) ∧
    (s.stack.length < 16 →
      exec (.call nnn) s = .next { s with
        PC := BitVec.ofNat 16 nnn.toNat, stack := (s.PC + 2#16) :: s.stack, answer := some .ok }) ∧
    (16 ≤ s.stack.length → ∀ e, e = ⟨.stackOverflow, s.PC, some (wordNNN 0x2#4 nnn), none⟩ →
      exec (.call nnn) s = .next { s with status := .halted e, answer := some (.err e) })

/-- R193's property: `2NNN` followed by `00EE` leaves PC at PC0 + 2 and the stack as it was. -/
def Obligations.RetAfterCallReturnsPastTheCall : Prop :=
  ∀ (nnn : Addr12) (s : State), s.stack.length < 16 →
    ∃ t, exec (.call nnn) s = .next t ∧ exec .ret t = .next { s with PC := s.PC + 2#16, answer := some .ok }

/-- R194, R195: the skips on an immediate. -/
def Obligations.SkipsOnAnImmediate : Prop :=
  ∀ (x : Reg) (nn : Byte) (s : State),
    decode (wordXNN 0x3#4 x nn) = .ok (.seByte x nn) ∧ decode (wordXNN 0x4#4 x nn) = .ok (.sneByte x nn) ∧
    exec (.seByte x nn) s = .next { s with
      PC := if s.V[x.val] = nn then s.PC + 4#16 else s.PC + 2#16, answer := some .ok } ∧
    exec (.sneByte x nn) s = .next { s with
      PC := if s.V[x.val] = nn then s.PC + 2#16 else s.PC + 4#16, answer := some .ok }

/-- R196, R197: the skips on two registers. -/
def Obligations.SkipsOnTwoRegisters : Prop :=
  ∀ (x y : Reg) (s : State),
    decode (wordXYN 0x5#4 x y 0) = .ok (.seReg x y) ∧ decode (wordXYN 0x9#4 x y 0) = .ok (.sneReg x y) ∧
    exec (.seReg x y) s = .next { s with
      PC := if s.V[x.val] = s.V[y.val] then s.PC + 4#16 else s.PC + 2#16, answer := some .ok } ∧
    exec (.sneReg x y) s = .next { s with
      PC := if s.V[x.val] = s.V[y.val] then s.PC + 2#16 else s.PC + 4#16, answer := some .ok }

/-- R198 (D10, D11): `BNNN` sets PC to NNN + V0, at most 0x10FE and unmasked. -/
def Obligations.JpV0AddsV0 : Prop :=
  ∀ (nnn : Addr12) (s : State),
    decode (wordNNN 0xB#4 nnn) = .ok (.jpV0 nnn) ∧
    ∃ t, exec (.jpV0 nnn) s = .next t ∧ t = { s with PC := t.PC, answer := some .ok } ∧
      t.PC.toNat = nnn.toNat + s.V[0].toNat ∧ t.PC.toNat ≤ 0x10FE

/-! ### Registers and ALU -/

/-- R220: `6XNN` loads V[X] and changes nothing else. -/
def Obligations.LdByteLoadsTheImmediate : Prop :=
  ∀ (x : Reg) (nn : Byte) (s : State),
    decode (wordXNN 0x6#4 x nn) = .ok (.ldByte x nn) ∧
    exec (.ldByte x nn) s = .next { s with PC := s.PC + 2#16, V := s.V.set x.val nn, answer := some .ok }

/-- R221 (D7): `7XNN` adds mod 256 and sets no flag. -/
def Obligations.AddByteAddsWithoutFlag : Prop :=
  ∀ (x : Reg) (nn : Byte) (s : State),
    decode (wordXNN 0x7#4 x nn) = .ok (.addByte x nn) ∧
    exec (.addByte x nn) s = .next { s with
      PC := s.PC + 2#16, V := s.V.set x.val (BitVec.ofNat 8 (s.V[x.val].toNat + nn.toNat)), answer := some .ok }

/-- R222: `8XY0` copies V[Y] into V[X]. -/
def Obligations.LdRegCopies : Prop :=
  ∀ (x y : Reg) (s : State),
    decode (wordXYN 0x8#4 x y 0x0) = .ok (.ldReg x y) ∧
    exec (.ldReg x y) s = .next { s with PC := s.PC + 2#16, V := s.V.set x.val s.V[y.val], answer := some .ok }

/-- R223, R224, R225 (D7): `8XY1`, `8XY2`, `8XY3` are the bitwise operations, without flag. -/
def Obligations.LogicActsBitwiseWithoutFlag : Prop :=
  ∀ (x y : Reg) (s : State),
    decode (wordXYN 0x8#4 x y 0x1) = .ok (.orReg x y) ∧ decode (wordXYN 0x8#4 x y 0x2) = .ok (.andReg x y) ∧
    decode (wordXYN 0x8#4 x y 0x3) = .ok (.xorReg x y) ∧
    exec (.orReg x y) s = .next { s with
      PC := s.PC + 2#16, V := s.V.set x.val (s.V[x.val] ||| s.V[y.val]), answer := some .ok } ∧
    exec (.andReg x y) s = .next { s with
      PC := s.PC + 2#16, V := s.V.set x.val (s.V[x.val] &&& s.V[y.val]), answer := some .ok } ∧
    exec (.xorReg x y) s = .next { s with
      PC := s.PC + 2#16, V := s.V.set x.val (s.V[x.val] ^^^ s.V[y.val]), answer := some .ok }

/-- R226 (D8, D9): `8XY4` adds mod 256, and VF, written last, is 1 exactly when the sum passes 255. -/
def Obligations.AddRegAddsWithCarry : Prop :=
  ∀ (x y : Reg) (s : State),
    decode (wordXYN 0x8#4 x y 0x4) = .ok (.addReg x y) ∧
    exec (.addReg x y) s = .next { s with
      PC := s.PC + 2#16,
      V := (s.V.set x.val (BitVec.ofNat 8 (s.V[x.val].toNat + s.V[y.val].toNat))).set 15
        (if 255 < s.V[x.val].toNat + s.V[y.val].toNat then 1#8 else 0#8),
      answer := some .ok }

/-- R227, R229 (D8, D9): `8XY5` and `8XY7` subtract mod 256, and VF, written last, is 1 exactly when there is no borrow. -/
def Obligations.SubAndSubnSubtractWithNoBorrowFlag : Prop :=
  ∀ (x y : Reg) (s : State),
    decode (wordXYN 0x8#4 x y 0x5) = .ok (.subReg x y) ∧ decode (wordXYN 0x8#4 x y 0x7) = .ok (.subn x y) ∧
    exec (.subReg x y) s = .next { s with
      PC := s.PC + 2#16,
      V := (s.V.set x.val (BitVec.ofInt 8 ((s.V[x.val].toNat : Int) - s.V[y.val].toNat))).set 15
        (if s.V[y.val].toNat ≤ s.V[x.val].toNat then 1#8 else 0#8),
      answer := some .ok } ∧
    exec (.subn x y) s = .next { s with
      PC := s.PC + 2#16,
      V := (s.V.set x.val (BitVec.ofInt 8 ((s.V[y.val].toNat : Int) - s.V[x.val].toNat))).set 15
        (if s.V[x.val].toNat ≤ s.V[y.val].toNat then 1#8 else 0#8),
      answer := some .ok }

/-- R228, R230 (D8, D31): `8XY6` halves and `8XYE` doubles mod 256 the shift source, V[X] or, if SHIFT_SOURCE = VY, V[Y]; VF,
written last, is the bit shifted out. -/
def Obligations.ShiftsMoveTheBitOutIntoVF : Prop :=
  ∀ (x y : Reg) (s : State) (src : Nat), src = (if s.shiftSource = .vx then s.V[x.val] else s.V[y.val]).toNat →
    decode (wordXYN 0x8#4 x y 0x6) = .ok (.shr x y) ∧ decode (wordXYN 0x8#4 x y 0xE) = .ok (.shl x y) ∧
    exec (.shr x y) s = .next { s with
      PC := s.PC + 2#16,
      V := (s.V.set x.val (BitVec.ofNat 8 (src / 2))).set 15 (BitVec.ofNat 8 (src % 2)),
      answer := some .ok } ∧
    exec (.shl x y) s = .next { s with
      PC := s.PC + 2#16,
      V := (s.V.set x.val (BitVec.ofNat 8 (2 * src))).set 15 (BitVec.ofNat 8 (src / 128)),
      answer := some .ok }

/-- R231 (D24): `CXNN` leaves the step's random byte, whatever it is, masked by NN in V[X]. -/
def Obligations.RndMasksTheRandomByte : Prop :=
  ∀ (x : Reg) (nn : Byte) (s : State),
    decode (wordXNN 0xC#4 x nn) = .ok (.rnd x nn) ∧
    exec (.rnd x nn) s = .next { s with
      PC := s.PC + 2#16, V := s.V.set x.val (s.inputs.rand &&& nn), answer := some .ok }

/-! ### Index register and memory -/

/-- R250: `ANNN` loads I with NNN and changes nothing else. -/
def Obligations.LdILoadsTheAddress : Prop :=
  ∀ (nnn : Addr12) (s : State),
    decode (wordNNN 0xA#4 nnn) = .ok (.ldI nnn) ∧
    exec (.ldI nnn) s = .next { s with PC := s.PC + 2#16, I := BitVec.ofNat 16 nnn.toNat, answer := some .ok }

/-- R251 (D10): `FX1E` adds V[X] to I mod 65536, without flag and without mask. -/
def Obligations.AddIAddsMod65536 : Prop :=
  ∀ (x : Reg) (s : State),
    decode (wordXNN 0xF#4 x 0x1E#8) = .ok (.addI x) ∧
    exec (.addI x) s = .next { s with
      PC := s.PC + 2#16, I := BitVec.ofNat 16 (s.I.toNat + s.V[x.val].toNat), answer := some .ok }

/-- R252 (D15): `FX29` points I at FONT_BASE + 5 V[X], whatever FONT_BASE is. -/
def Obligations.LdFPointsAtTheGlyph : Prop :=
  ∀ (x : Reg) (s : State),
    decode (wordXNN 0xF#4 x 0x29#8) = .ok (.ldF x) ∧
    exec (.ldF x) s = .next { s with
      PC := s.PC + 2#16, I := BitVec.ofNat 16 (s.fontBase.toNat + s.V[x.val].toNat * 5), answer := some .ok }

/-- R253 (D12, D17): `FX33` stores the three digits of V[X] at I, I + 1, I + 2, hundreds first, and no other byte changes;
where one of the three lies past 0xFFF it halts with the lowest such address. -/
def Obligations.LdBStoresTheDigits : Prop :=
  ∀ (x : Reg) (s : State),
    decode (wordXNN 0xF#4 x 0x33#8) = .ok (.ldB x) ∧
    (s.I.toNat + 2 ≤ 0xFFF → ∃ m : Memory,
      exec (.ldB x) s = .next { s with PC := s.PC + 2#16, mem := m, answer := some .ok } ∧
      (Memory.read m s.I.toNat).toNat = s.V[x.val].toNat / 100 ∧
      (Memory.read m (s.I.toNat + 1)).toNat = s.V[x.val].toNat / 10 % 10 ∧
      (Memory.read m (s.I.toNat + 2)).toNat = s.V[x.val].toNat % 10 ∧
      ∀ a, a < s.I.toNat ∨ s.I.toNat + 3 ≤ a → Memory.read m a = Memory.read s.mem a) ∧
    (0xFFF < s.I.toNat + 2 →
      ∀ e, e = ⟨.outOfBounds, s.PC, some (wordXNN 0xF#4 x 0x33#8), some (max s.I.toNat 0x1000)⟩ →
      exec (.ldB x) s = .next { s with status := .halted e, answer := some (.err e) })

/-- R254, R256 (D12): `FX55` stores V[k] at I + k for k up to X, no other byte changes, and I stays; where a byte lies past
0xFFF it halts with the lowest such address. -/
def Obligations.StRegsDumpsTheRegisters : Prop :=
  ∀ (x : Reg) (s : State),
    decode (wordXNN 0xF#4 x 0x55#8) = .ok (.stRegs x) ∧
    (s.I.toNat + x.val ≤ 0xFFF → ∃ m : Memory,
      exec (.stRegs x) s = .next { s with PC := s.PC + 2#16, mem := m, answer := some .ok } ∧
      (∀ k : Reg, k ≤ x → Memory.read m (s.I.toNat + k.val) = s.V[k.val]) ∧
      ∀ a, a < s.I.toNat ∨ s.I.toNat + (x.val + 1) ≤ a → Memory.read m a = Memory.read s.mem a) ∧
    (0xFFF < s.I.toNat + x.val →
      ∀ e, e = ⟨.outOfBounds, s.PC, some (wordXNN 0xF#4 x 0x55#8), some (max s.I.toNat 0x1000)⟩ →
      exec (.stRegs x) s = .next { s with status := .halted e, answer := some (.err e) })

/-- R255, R256 (D12): `FX65` loads V[k] from I + k for k up to X, the other registers and I stay; where a byte lies past
0xFFF it halts with the lowest such address. -/
def Obligations.LdRegsLoadsTheRegisters : Prop :=
  ∀ (x : Reg) (s : State),
    decode (wordXNN 0xF#4 x 0x65#8) = .ok (.ldRegs x) ∧
    (s.I.toNat + x.val ≤ 0xFFF → ∃ v : Vector Byte 16,
      exec (.ldRegs x) s = .next { s with PC := s.PC + 2#16, V := v, answer := some .ok } ∧
      ∀ k : Reg, v[k.val] = if k ≤ x then Memory.read s.mem (s.I.toNat + k.val) else s.V[k.val]) ∧
    (0xFFF < s.I.toNat + x.val →
      ∀ e, e = ⟨.outOfBounds, s.PC, some (wordXNN 0xF#4 x 0x65#8), some (max s.I.toNat 0x1000)⟩ →
      exec (.ldRegs x) s = .next { s with status := .halted e, answer := some (.err e) })

/-- R256's round trip, for every X: `FX65` after `FX55`, whatever the registers were set to in between, restores V0..V[X];
the registers after V[X] keep the values between. -/
def Obligations.DumpThenLoadRestoresTheRegisters : Prop :=
  ∀ (x : Reg) (s : State) (v : Vector Byte 16), s.I.toNat + x.val ≤ 0xFFF →
    ∃ t u, exec (.stRegs x) s = .next t ∧ exec (.ldRegs x) { t with V := v } = .next u ∧
      (∀ k : Reg, u.V[k.val] = if k ≤ x then s.V[k.val] else v[k.val]) ∧ u.I = s.I

/-- R85 (derived there): what `FX55` stores is what the next fetch reads, two neighbouring bytes as one big-endian word. -/
def Obligations.StoredRegistersAreFetchedAsWords : Prop :=
  ∀ (x k k1 : Reg) (s : State), s.I.toNat + x.val ≤ 0xFFF → k1.val = k.val + 1 → k1 ≤ x →
    ∃ t, exec (.stRegs x) s = .next t ∧
      fetchWord t.mem (s.I.toNat + k.val) = .ok (wordOfBytes s.V[k.val] s.V[k1.val])

/-! ### Keys and timers -/

/-- R270, R271 (D18): `EX9E` and `EXA1` skip on the pressed state of key V[X]; for an index above 15 on the free input. -/
def Obligations.KeySkipsReadTheKeyState : Prop :=
  ∀ (x : Reg) (s : State) (p : Bool),
    p = (if h : s.V[x.val].toNat < 16 then s.inputs.keys[s.V[x.val].toNat] else s.inputs.keyOob) →
    decode (wordXNN 0xE#4 x 0x9E#8) = .ok (.skp x) ∧ decode (wordXNN 0xE#4 x 0xA1#8) = .ok (.sknp x) ∧
    exec (.skp x) s = .next { s with
      PC := if p = true then s.PC + 4#16 else s.PC + 2#16, answer := some .ok } ∧
    exec (.sknp x) s = .next { s with
      PC := if p = true then s.PC + 2#16 else s.PC + 4#16, answer := some .ok }

/-- R272: `FX07` reads the delay timer into V[X]. -/
def Obligations.LdVxDTReadsTheDelayTimer : Prop :=
  ∀ (x : Reg) (s : State),
    decode (wordXNN 0xF#4 x 0x07#8) = .ok (.ldVxDT x) ∧
    exec (.ldVxDT x) s = .next { s with PC := s.PC + 2#16, V := s.V.set x.val s.DT, answer := some .ok }

/-- R273 (D19): `FX0A` with an event stores the key in V[X] and consumes the event; without one it holds and PC stays. -/
def Obligations.LdVxKWaitsForAKey : Prop :=
  ∀ (x : Reg) (s : State),
    decode (wordXNN 0xF#4 x 0x0A#8) = .ok (.ldVxK x) ∧
    (∀ k : Fin 16, s.inputs.keyEvent = some k →
      exec (.ldVxK x) s = .next { s with
        PC := s.PC + 2#16, V := s.V.set x.val (BitVec.ofNat 8 k.val),
        inputs := { s.inputs with keyEvent := none }, answer := some .ok }) ∧
    (s.inputs.keyEvent = none → exec (.ldVxK x) s = .next { s with answer := some .hold })

/-- R274, R275: `FX15` and `FX18` set a timer from V[X] and change nothing else. -/
def Obligations.TimersAreSetFromVx : Prop :=
  ∀ (x : Reg) (s : State),
    decode (wordXNN 0xF#4 x 0x15#8) = .ok (.ldDTVx x) ∧ decode (wordXNN 0xF#4 x 0x18#8) = .ok (.ldSTVx x) ∧
    exec (.ldDTVx x) s = .next { s with PC := s.PC + 2#16, DT := s.V[x.val], answer := some .ok } ∧
    exec (.ldSTVx x) s = .next { s with PC := s.PC + 2#16, ST := s.V[x.val], answer := some .ok }

/-! ### The host's actions -/

/-- R341, R342 (D21, D22, D34): a `Reset` move, planned or free, whatever the state, gives the reset values and leaves memory and the
parameters. -/
def Obligations.ResetMoveRestoresTheResetValues : Prop :=
  ∀ s : State, s.nextMove = .reset →
    ∃ t, step s = .next t ∧ (∀ x : Reg, t.V[x.val] = 0#8) ∧ t.I = 0#16 ∧ t.PC = 0x200#16 ∧ t.stack = [] ∧
      (∀ x y, fbGet t.fb x y = false) ∧ t.DT = 0#8 ∧ t.ST = 0#8 ∧ t.status = .running ∧
      t.mem = s.mem ∧ t.fontBase = s.fontBase ∧ t.shiftSource = s.shiftSource ∧ t.moves = s.moveTaken.moves

/-- R278 (D20; that a timer stops at 0 is general knowledge, not the source's): a `Tick` move takes one from each timer that
is not zero and changes nothing else of the CORE. -/
def Obligations.TickMoveDecrementsTheTimers : Prop :=
  ∀ s : State, s.nextMove = .tick →
    ∃ dt st : Byte, dt.toNat = s.DT.toNat - 1 ∧ st.toNat = s.ST.toNat - 1 ∧
      step s = .next { s.moveTaken with DT := dt, ST := st, answer := none }

/-- R352, R355 (D3, D20; KT13): any number k of ticks may fall between two steps, so `FX07` after `FX15` reads the value set
less k, stopping at 0. Of registers and memory only the destination of `FX07` changes. -/
def Obligations.AnyNumberOfTicksFallsBetweenTwoSteps : Prop :=
  ∀ (k : Nat) (s : State) (x y : Reg), s.status = .running →
    fetchWord s.mem s.PC.toNat = .ok (wordXNN 0xF#4 x 0x15#8) →
    fetchWord s.mem (s.PC.toNat + 2) = .ok (wordXNN 0xF#4 y 0x07#8) →
    (∃ inp, s.hostMove 0 = .request inp) → (∀ j, j < k → s.hostMove (j + 1) = .tick) →
    (∃ inp, s.hostMove (k + 1) = .request inp) →
    ∃ t, Host.Core.run Sys2Proof.core (k + 2) s = .next t ∧ t.answer = some .ok ∧ t.PC = s.PC + 4#16 ∧
      t.V[y.val].toNat = s.V[x.val].toNat - k ∧ (∀ r : Reg, r ≠ y → t.V[r.val] = s.V[r.val]) ∧ t.mem = s.mem

/-- R345 (D26): a `Load` move writes the bytes from 0x200 on and nothing else; one longer than 3584 bytes fails and writes
nothing. -/
def Obligations.LoadMoveWritesTheProgram : Prop :=
  ∀ (s : State) (bytes : List Byte), s.nextMove = .load bytes →
    (bytes.length ≤ 3584 → ∃ m : Memory, step s = .next { s.moveTaken with mem := m, answer := none } ∧
      ∀ a, Memory.read m a =
        if 0x200 ≤ a ∧ a < 0x200 + bytes.length then bytes.getD (a - 0x200) 0#8 else Memory.read s.mem a) ∧
    (3584 < bytes.length → step s = .next { s.moveTaken with answer := some .programTooLarge })

/-! ### The end of a run -/

/-- R151 (D29), R192: from a normal end (Running at a jump to itself), any number of steps with no host action between them
leaves the whole state of the CORE unchanged. -/
def Obligations.NormalEndLastsForever : Prop :=
  ∀ (k : Nat) (s : State), s.normalEnd → (∀ j, j < k → ∃ inp, s.hostMove j = .request inp) →
    ∃ t, Host.Core.run Sys2Proof.core k s = .next t ∧ SameCore s t
end

