-- ==== Sys2Proof/Laws/Encoding.lean ====
section
/-! SUPPORT. The fields of a word put together from fields (R101, R103), and of a word split into bytes (R73), by their
values as numbers. -/

namespace Sys2Proof

theorem toNat_append_eq {v w : Nat} (a : BitVec v) (b : BitVec w) : (a ++ b).toNat = a.toNat * 2 ^ w + b.toNat := by
  rw [BitVec.toNat_append, ← Nat.shiftLeft_add_eq_or_of_lt b.isLt, Nat.shiftLeft_eq]

theorem toNat_extract_eq {w : Nat} (a : BitVec w) (start len : Nat) :
    (a.extractLsb' start len).toNat = a.toNat / 2 ^ start % 2 ^ len := by
  rw [BitVec.extractLsb'_toNat, Nat.shiftRight_eq_div_pow]

variable (w : Word) (f : BitVec 4) (x y : Reg) (n : Fin 16) (nn : Byte) (nnn : Addr12)

/-! The fields as numbers. -/

theorem fieldFamily_eq : fieldFamily w = w.toNat / 4096 % 16 := toNat_extract_eq w 12 4

theorem fieldX_val : (fieldX w).val = w.toNat / 256 % 16 := toNat_extract_eq w 8 4

theorem fieldY_val : (fieldY w).val = w.toNat / 16 % 16 := toNat_extract_eq w 4 4

theorem fieldN_val : (fieldN w).val = w.toNat % 16 := by
  have := toNat_extract_eq w 0 4
  simpa [fieldN] using this

theorem fieldNN_toNat : (fieldNN w).toNat = w.toNat % 256 := by
  have := toNat_extract_eq w 0 8
  simpa [fieldNN] using this

theorem fieldNNN_toNat : (fieldNNN w).toNat = w.toNat % 4096 := by
  have := toNat_extract_eq w 0 12
  simpa [fieldNNN] using this

/-! The words as numbers. -/

theorem wordNNN_toNat : (wordNNN f nnn).toNat = f.toNat * 4096 + nnn.toNat := toNat_append_eq f nnn

theorem wordXNN_toNat : (wordXNN f x nn).toNat = (f.toNat * 16 + x.val) * 256 + nn.toNat := by
  refine (toNat_append_eq (f ++ (BitVec.ofFin x : BitVec 4)) nn).trans ?_
  rw [toNat_append_eq]; rfl

theorem wordXYN_toNat : (wordXYN f x y n).toNat = ((f.toNat * 16 + x.val) * 16 + y.val) * 16 + n.val := by
  refine (toNat_append_eq (f ++ (BitVec.ofFin x : BitVec 4) ++ (BitVec.ofFin y : BitVec 4)) (BitVec.ofFin n : BitVec 4)).trans ?_
  rw [toNat_append_eq, toNat_append_eq]; rfl

/-! The fields of a word put together from fields. -/

@[simp] theorem fieldFamily_wordNNN : fieldFamily (wordNNN f nnn) = f.toNat := by
  rw [fieldFamily_eq, wordNNN_toNat]; omega

@[simp] theorem fieldNNN_wordNNN : fieldNNN (wordNNN f nnn) = nnn := by
  apply BitVec.eq_of_toNat_eq; rw [fieldNNN_toNat, wordNNN_toNat]; omega

@[simp] theorem fieldFamily_wordXNN : fieldFamily (wordXNN f x nn) = f.toNat := by
  rw [fieldFamily_eq, wordXNN_toNat]; omega

@[simp] theorem fieldX_wordXNN : fieldX (wordXNN f x nn) = x := by
  apply Fin.ext; rw [fieldX_val, wordXNN_toNat]; omega

@[simp] theorem fieldNN_wordXNN : fieldNN (wordXNN f x nn) = nn := by
  apply BitVec.eq_of_toNat_eq; rw [fieldNN_toNat, wordXNN_toNat]; omega

@[simp] theorem fieldFamily_wordXYN : fieldFamily (wordXYN f x y n) = f.toNat := by
  rw [fieldFamily_eq, wordXYN_toNat]; omega

@[simp] theorem fieldX_wordXYN : fieldX (wordXYN f x y n) = x := by
  apply Fin.ext; rw [fieldX_val, wordXYN_toNat]; omega

@[simp] theorem fieldY_wordXYN : fieldY (wordXYN f x y n) = y := by
  apply Fin.ext; rw [fieldY_val, wordXYN_toNat]; omega

@[simp] theorem fieldN_wordXYN : fieldN (wordXYN f x y n) = n := by
  apply Fin.ext; rw [fieldN_val, wordXYN_toNat]; omega

/-! Every word is put together from its fields. -/

theorem wordNNN_fields (h : fieldFamily w = f.toNat) : wordNNN f (fieldNNN w) = w := by
  apply BitVec.eq_of_toNat_eq
  rw [fieldFamily_eq] at h
  rw [wordNNN_toNat, fieldNNN_toNat]; omega

theorem wordXNN_fields (h : fieldFamily w = f.toNat) : wordXNN f (fieldX w) (fieldNN w) = w := by
  apply BitVec.eq_of_toNat_eq
  rw [fieldFamily_eq] at h
  rw [wordXNN_toNat, fieldX_val, fieldNN_toNat]; omega

theorem wordXYN_fields (h : fieldFamily w = f.toNat) : wordXYN f (fieldX w) (fieldY w) (fieldN w) = w := by
  apply BitVec.eq_of_toNat_eq
  rw [fieldFamily_eq] at h
  rw [wordXYN_toNat, fieldX_val, fieldY_val, fieldN_val]; omega

theorem fieldFamily_lt : fieldFamily w < 16 := (w.extractLsb' 12 4).isLt

/-! A word as two bytes, high byte first. -/

theorem wordOfBytes_toNat (hi lo : Byte) : (wordOfBytes hi lo).toNat = hi.toNat * 256 + lo.toNat := toNat_append_eq hi lo

theorem highByte_toNat : (highByte w).toNat = w.toNat / 256 := by
  have := toNat_extract_eq w 8 8
  rw [highByte, this]; omega

theorem lowByte_toNat : (lowByte w).toNat = w.toNat % 256 := by
  have := toNat_extract_eq w 0 8
  simpa [lowByte] using this

@[simp] theorem wordOfBytes_high_low : wordOfBytes (highByte w) (lowByte w) = w := by
  apply BitVec.eq_of_toNat_eq; rw [wordOfBytes_toNat, highByte_toNat, lowByte_toNat]; omega

@[simp] theorem highByte_wordOfBytes (hi lo : Byte) : highByte (wordOfBytes hi lo) = hi := by
  apply BitVec.eq_of_toNat_eq; rw [highByte_toNat, wordOfBytes_toNat]; omega

@[simp] theorem lowByte_wordOfBytes (hi lo : Byte) : lowByte (wordOfBytes hi lo) = lo := by
  apply BitVec.eq_of_toNat_eq; rw [lowByte_toNat, wordOfBytes_toNat]; omega

end Sys2Proof
end

