-- ==== Sys2Proof/Laws/State.lean ====
section
/-! SUPPORT. One lemma per field of State per named update, each true by rfl, so that no proof unfolds a record update. -/

namespace Sys2Proof.Machine

variable (s : State)

@[simp] theorem State.writeReg_V (x : Reg) (b : Byte) : (s.writeReg x b).V = s.V.set x.val b := rfl
@[simp] theorem State.writeReg_I (x : Reg) (b : Byte) : (s.writeReg x b).I = s.I := rfl
@[simp] theorem State.writeReg_PC (x : Reg) (b : Byte) : (s.writeReg x b).PC = s.PC := rfl
@[simp] theorem State.writeReg_stack (x : Reg) (b : Byte) : (s.writeReg x b).stack = s.stack := rfl
@[simp] theorem State.writeReg_DT (x : Reg) (b : Byte) : (s.writeReg x b).DT = s.DT := rfl
@[simp] theorem State.writeReg_ST (x : Reg) (b : Byte) : (s.writeReg x b).ST = s.ST := rfl
@[simp] theorem State.writeReg_fb (x : Reg) (b : Byte) : (s.writeReg x b).fb = s.fb := rfl
@[simp] theorem State.writeReg_mem (x : Reg) (b : Byte) : (s.writeReg x b).mem = s.mem := rfl
@[simp] theorem State.writeReg_status (x : Reg) (b : Byte) : (s.writeReg x b).status = s.status := rfl
@[simp] theorem State.writeReg_fontBase (x : Reg) (b : Byte) : (s.writeReg x b).fontBase = s.fontBase := rfl
@[simp] theorem State.writeReg_shiftSource (x : Reg) (b : Byte) : (s.writeReg x b).shiftSource = s.shiftSource := rfl
@[simp] theorem State.writeReg_inputs (x : Reg) (b : Byte) : (s.writeReg x b).inputs = s.inputs := rfl
@[simp] theorem State.writeReg_draws (x : Reg) (b : Byte) : (s.writeReg x b).draws = s.draws := rfl
@[simp] theorem State.writeReg_moves (x : Reg) (b : Byte) : (s.writeReg x b).moves = s.moves := rfl
@[simp] theorem State.writeReg_movesDrawn (x : Reg) (b : Byte) : (s.writeReg x b).movesDrawn = s.movesDrawn := rfl
@[simp] theorem State.writeReg_answer (x : Reg) (b : Byte) : (s.writeReg x b).answer = s.answer := rfl

@[simp] theorem State.setV_V (v : Vector Byte 16) : (s.setV v).V = v := rfl
@[simp] theorem State.setV_I (v : Vector Byte 16) : (s.setV v).I = s.I := rfl
@[simp] theorem State.setV_PC (v : Vector Byte 16) : (s.setV v).PC = s.PC := rfl
@[simp] theorem State.setV_stack (v : Vector Byte 16) : (s.setV v).stack = s.stack := rfl
@[simp] theorem State.setV_DT (v : Vector Byte 16) : (s.setV v).DT = s.DT := rfl
@[simp] theorem State.setV_ST (v : Vector Byte 16) : (s.setV v).ST = s.ST := rfl
@[simp] theorem State.setV_fb (v : Vector Byte 16) : (s.setV v).fb = s.fb := rfl
@[simp] theorem State.setV_mem (v : Vector Byte 16) : (s.setV v).mem = s.mem := rfl
@[simp] theorem State.setV_status (v : Vector Byte 16) : (s.setV v).status = s.status := rfl
@[simp] theorem State.setV_fontBase (v : Vector Byte 16) : (s.setV v).fontBase = s.fontBase := rfl
@[simp] theorem State.setV_shiftSource (v : Vector Byte 16) : (s.setV v).shiftSource = s.shiftSource := rfl
@[simp] theorem State.setV_inputs (v : Vector Byte 16) : (s.setV v).inputs = s.inputs := rfl
@[simp] theorem State.setV_draws (v : Vector Byte 16) : (s.setV v).draws = s.draws := rfl
@[simp] theorem State.setV_moves (v : Vector Byte 16) : (s.setV v).moves = s.moves := rfl
@[simp] theorem State.setV_movesDrawn (v : Vector Byte 16) : (s.setV v).movesDrawn = s.movesDrawn := rfl
@[simp] theorem State.setV_answer (v : Vector Byte 16) : (s.setV v).answer = s.answer := rfl

@[simp] theorem State.setI_V (a : Word) : (s.setI a).V = s.V := rfl
@[simp] theorem State.setI_I (a : Word) : (s.setI a).I = a := rfl
@[simp] theorem State.setI_PC (a : Word) : (s.setI a).PC = s.PC := rfl
@[simp] theorem State.setI_stack (a : Word) : (s.setI a).stack = s.stack := rfl
@[simp] theorem State.setI_DT (a : Word) : (s.setI a).DT = s.DT := rfl
@[simp] theorem State.setI_ST (a : Word) : (s.setI a).ST = s.ST := rfl
@[simp] theorem State.setI_fb (a : Word) : (s.setI a).fb = s.fb := rfl
@[simp] theorem State.setI_mem (a : Word) : (s.setI a).mem = s.mem := rfl
@[simp] theorem State.setI_status (a : Word) : (s.setI a).status = s.status := rfl
@[simp] theorem State.setI_fontBase (a : Word) : (s.setI a).fontBase = s.fontBase := rfl
@[simp] theorem State.setI_shiftSource (a : Word) : (s.setI a).shiftSource = s.shiftSource := rfl
@[simp] theorem State.setI_inputs (a : Word) : (s.setI a).inputs = s.inputs := rfl
@[simp] theorem State.setI_draws (a : Word) : (s.setI a).draws = s.draws := rfl
@[simp] theorem State.setI_moves (a : Word) : (s.setI a).moves = s.moves := rfl
@[simp] theorem State.setI_movesDrawn (a : Word) : (s.setI a).movesDrawn = s.movesDrawn := rfl
@[simp] theorem State.setI_answer (a : Word) : (s.setI a).answer = s.answer := rfl

@[simp] theorem State.setPC_V (a : Word) : (s.setPC a).V = s.V := rfl
@[simp] theorem State.setPC_I (a : Word) : (s.setPC a).I = s.I := rfl
@[simp] theorem State.setPC_PC (a : Word) : (s.setPC a).PC = a := rfl
@[simp] theorem State.setPC_stack (a : Word) : (s.setPC a).stack = s.stack := rfl
@[simp] theorem State.setPC_DT (a : Word) : (s.setPC a).DT = s.DT := rfl
@[simp] theorem State.setPC_ST (a : Word) : (s.setPC a).ST = s.ST := rfl
@[simp] theorem State.setPC_fb (a : Word) : (s.setPC a).fb = s.fb := rfl
@[simp] theorem State.setPC_mem (a : Word) : (s.setPC a).mem = s.mem := rfl
@[simp] theorem State.setPC_status (a : Word) : (s.setPC a).status = s.status := rfl
@[simp] theorem State.setPC_fontBase (a : Word) : (s.setPC a).fontBase = s.fontBase := rfl
@[simp] theorem State.setPC_shiftSource (a : Word) : (s.setPC a).shiftSource = s.shiftSource := rfl
@[simp] theorem State.setPC_inputs (a : Word) : (s.setPC a).inputs = s.inputs := rfl
@[simp] theorem State.setPC_draws (a : Word) : (s.setPC a).draws = s.draws := rfl
@[simp] theorem State.setPC_moves (a : Word) : (s.setPC a).moves = s.moves := rfl
@[simp] theorem State.setPC_movesDrawn (a : Word) : (s.setPC a).movesDrawn = s.movesDrawn := rfl
@[simp] theorem State.setPC_answer (a : Word) : (s.setPC a).answer = s.answer := rfl

@[simp] theorem State.advance_V : (s.advance).V = s.V := rfl
@[simp] theorem State.advance_I : (s.advance).I = s.I := rfl
@[simp] theorem State.advance_PC : (s.advance).PC = s.PC + 2#16 := rfl
@[simp] theorem State.advance_stack : (s.advance).stack = s.stack := rfl
@[simp] theorem State.advance_DT : (s.advance).DT = s.DT := rfl
@[simp] theorem State.advance_ST : (s.advance).ST = s.ST := rfl
@[simp] theorem State.advance_fb : (s.advance).fb = s.fb := rfl
@[simp] theorem State.advance_mem : (s.advance).mem = s.mem := rfl
@[simp] theorem State.advance_status : (s.advance).status = s.status := rfl
@[simp] theorem State.advance_fontBase : (s.advance).fontBase = s.fontBase := rfl
@[simp] theorem State.advance_shiftSource : (s.advance).shiftSource = s.shiftSource := rfl
@[simp] theorem State.advance_inputs : (s.advance).inputs = s.inputs := rfl
@[simp] theorem State.advance_draws : (s.advance).draws = s.draws := rfl
@[simp] theorem State.advance_moves : (s.advance).moves = s.moves := rfl
@[simp] theorem State.advance_movesDrawn : (s.advance).movesDrawn = s.movesDrawn := rfl
@[simp] theorem State.advance_answer : (s.advance).answer = s.answer := rfl

@[simp] theorem State.setStack_V (st : List Word) : (s.setStack st).V = s.V := rfl
@[simp] theorem State.setStack_I (st : List Word) : (s.setStack st).I = s.I := rfl
@[simp] theorem State.setStack_PC (st : List Word) : (s.setStack st).PC = s.PC := rfl
@[simp] theorem State.setStack_stack (st : List Word) : (s.setStack st).stack = st := rfl
@[simp] theorem State.setStack_DT (st : List Word) : (s.setStack st).DT = s.DT := rfl
@[simp] theorem State.setStack_ST (st : List Word) : (s.setStack st).ST = s.ST := rfl
@[simp] theorem State.setStack_fb (st : List Word) : (s.setStack st).fb = s.fb := rfl
@[simp] theorem State.setStack_mem (st : List Word) : (s.setStack st).mem = s.mem := rfl
@[simp] theorem State.setStack_status (st : List Word) : (s.setStack st).status = s.status := rfl
@[simp] theorem State.setStack_fontBase (st : List Word) : (s.setStack st).fontBase = s.fontBase := rfl
@[simp] theorem State.setStack_shiftSource (st : List Word) : (s.setStack st).shiftSource = s.shiftSource := rfl
@[simp] theorem State.setStack_inputs (st : List Word) : (s.setStack st).inputs = s.inputs := rfl
@[simp] theorem State.setStack_draws (st : List Word) : (s.setStack st).draws = s.draws := rfl
@[simp] theorem State.setStack_moves (st : List Word) : (s.setStack st).moves = s.moves := rfl
@[simp] theorem State.setStack_movesDrawn (st : List Word) : (s.setStack st).movesDrawn = s.movesDrawn := rfl
@[simp] theorem State.setStack_answer (st : List Word) : (s.setStack st).answer = s.answer := rfl

@[simp] theorem State.setDT_V (b : Byte) : (s.setDT b).V = s.V := rfl
@[simp] theorem State.setDT_I (b : Byte) : (s.setDT b).I = s.I := rfl
@[simp] theorem State.setDT_PC (b : Byte) : (s.setDT b).PC = s.PC := rfl
@[simp] theorem State.setDT_stack (b : Byte) : (s.setDT b).stack = s.stack := rfl
@[simp] theorem State.setDT_DT (b : Byte) : (s.setDT b).DT = b := rfl
@[simp] theorem State.setDT_ST (b : Byte) : (s.setDT b).ST = s.ST := rfl
@[simp] theorem State.setDT_fb (b : Byte) : (s.setDT b).fb = s.fb := rfl
@[simp] theorem State.setDT_mem (b : Byte) : (s.setDT b).mem = s.mem := rfl
@[simp] theorem State.setDT_status (b : Byte) : (s.setDT b).status = s.status := rfl
@[simp] theorem State.setDT_fontBase (b : Byte) : (s.setDT b).fontBase = s.fontBase := rfl
@[simp] theorem State.setDT_shiftSource (b : Byte) : (s.setDT b).shiftSource = s.shiftSource := rfl
@[simp] theorem State.setDT_inputs (b : Byte) : (s.setDT b).inputs = s.inputs := rfl
@[simp] theorem State.setDT_draws (b : Byte) : (s.setDT b).draws = s.draws := rfl
@[simp] theorem State.setDT_moves (b : Byte) : (s.setDT b).moves = s.moves := rfl
@[simp] theorem State.setDT_movesDrawn (b : Byte) : (s.setDT b).movesDrawn = s.movesDrawn := rfl
@[simp] theorem State.setDT_answer (b : Byte) : (s.setDT b).answer = s.answer := rfl

@[simp] theorem State.setST_V (b : Byte) : (s.setST b).V = s.V := rfl
@[simp] theorem State.setST_I (b : Byte) : (s.setST b).I = s.I := rfl
@[simp] theorem State.setST_PC (b : Byte) : (s.setST b).PC = s.PC := rfl
@[simp] theorem State.setST_stack (b : Byte) : (s.setST b).stack = s.stack := rfl
@[simp] theorem State.setST_DT (b : Byte) : (s.setST b).DT = s.DT := rfl
@[simp] theorem State.setST_ST (b : Byte) : (s.setST b).ST = b := rfl
@[simp] theorem State.setST_fb (b : Byte) : (s.setST b).fb = s.fb := rfl
@[simp] theorem State.setST_mem (b : Byte) : (s.setST b).mem = s.mem := rfl
@[simp] theorem State.setST_status (b : Byte) : (s.setST b).status = s.status := rfl
@[simp] theorem State.setST_fontBase (b : Byte) : (s.setST b).fontBase = s.fontBase := rfl
@[simp] theorem State.setST_shiftSource (b : Byte) : (s.setST b).shiftSource = s.shiftSource := rfl
@[simp] theorem State.setST_inputs (b : Byte) : (s.setST b).inputs = s.inputs := rfl
@[simp] theorem State.setST_draws (b : Byte) : (s.setST b).draws = s.draws := rfl
@[simp] theorem State.setST_moves (b : Byte) : (s.setST b).moves = s.moves := rfl
@[simp] theorem State.setST_movesDrawn (b : Byte) : (s.setST b).movesDrawn = s.movesDrawn := rfl
@[simp] theorem State.setST_answer (b : Byte) : (s.setST b).answer = s.answer := rfl

@[simp] theorem State.setFb_V (f : Framebuffer) : (s.setFb f).V = s.V := rfl
@[simp] theorem State.setFb_I (f : Framebuffer) : (s.setFb f).I = s.I := rfl
@[simp] theorem State.setFb_PC (f : Framebuffer) : (s.setFb f).PC = s.PC := rfl
@[simp] theorem State.setFb_stack (f : Framebuffer) : (s.setFb f).stack = s.stack := rfl
@[simp] theorem State.setFb_DT (f : Framebuffer) : (s.setFb f).DT = s.DT := rfl
@[simp] theorem State.setFb_ST (f : Framebuffer) : (s.setFb f).ST = s.ST := rfl
@[simp] theorem State.setFb_fb (f : Framebuffer) : (s.setFb f).fb = f := rfl
@[simp] theorem State.setFb_mem (f : Framebuffer) : (s.setFb f).mem = s.mem := rfl
@[simp] theorem State.setFb_status (f : Framebuffer) : (s.setFb f).status = s.status := rfl
@[simp] theorem State.setFb_fontBase (f : Framebuffer) : (s.setFb f).fontBase = s.fontBase := rfl
@[simp] theorem State.setFb_shiftSource (f : Framebuffer) : (s.setFb f).shiftSource = s.shiftSource := rfl
@[simp] theorem State.setFb_inputs (f : Framebuffer) : (s.setFb f).inputs = s.inputs := rfl
@[simp] theorem State.setFb_draws (f : Framebuffer) : (s.setFb f).draws = s.draws := rfl
@[simp] theorem State.setFb_moves (f : Framebuffer) : (s.setFb f).moves = s.moves := rfl
@[simp] theorem State.setFb_movesDrawn (f : Framebuffer) : (s.setFb f).movesDrawn = s.movesDrawn := rfl
@[simp] theorem State.setFb_answer (f : Framebuffer) : (s.setFb f).answer = s.answer := rfl

@[simp] theorem State.setMem_V (m : Memory) : (s.setMem m).V = s.V := rfl
@[simp] theorem State.setMem_I (m : Memory) : (s.setMem m).I = s.I := rfl
@[simp] theorem State.setMem_PC (m : Memory) : (s.setMem m).PC = s.PC := rfl
@[simp] theorem State.setMem_stack (m : Memory) : (s.setMem m).stack = s.stack := rfl
@[simp] theorem State.setMem_DT (m : Memory) : (s.setMem m).DT = s.DT := rfl
@[simp] theorem State.setMem_ST (m : Memory) : (s.setMem m).ST = s.ST := rfl
@[simp] theorem State.setMem_fb (m : Memory) : (s.setMem m).fb = s.fb := rfl
@[simp] theorem State.setMem_mem (m : Memory) : (s.setMem m).mem = m := rfl
@[simp] theorem State.setMem_status (m : Memory) : (s.setMem m).status = s.status := rfl
@[simp] theorem State.setMem_fontBase (m : Memory) : (s.setMem m).fontBase = s.fontBase := rfl
@[simp] theorem State.setMem_shiftSource (m : Memory) : (s.setMem m).shiftSource = s.shiftSource := rfl
@[simp] theorem State.setMem_inputs (m : Memory) : (s.setMem m).inputs = s.inputs := rfl
@[simp] theorem State.setMem_draws (m : Memory) : (s.setMem m).draws = s.draws := rfl
@[simp] theorem State.setMem_moves (m : Memory) : (s.setMem m).moves = s.moves := rfl
@[simp] theorem State.setMem_movesDrawn (m : Memory) : (s.setMem m).movesDrawn = s.movesDrawn := rfl
@[simp] theorem State.setMem_answer (m : Memory) : (s.setMem m).answer = s.answer := rfl

@[simp] theorem State.setStatus_V (st : Status) : (s.setStatus st).V = s.V := rfl
@[simp] theorem State.setStatus_I (st : Status) : (s.setStatus st).I = s.I := rfl
@[simp] theorem State.setStatus_PC (st : Status) : (s.setStatus st).PC = s.PC := rfl
@[simp] theorem State.setStatus_stack (st : Status) : (s.setStatus st).stack = s.stack := rfl
@[simp] theorem State.setStatus_DT (st : Status) : (s.setStatus st).DT = s.DT := rfl
@[simp] theorem State.setStatus_ST (st : Status) : (s.setStatus st).ST = s.ST := rfl
@[simp] theorem State.setStatus_fb (st : Status) : (s.setStatus st).fb = s.fb := rfl
@[simp] theorem State.setStatus_mem (st : Status) : (s.setStatus st).mem = s.mem := rfl
@[simp] theorem State.setStatus_status (st : Status) : (s.setStatus st).status = st := rfl
@[simp] theorem State.setStatus_fontBase (st : Status) : (s.setStatus st).fontBase = s.fontBase := rfl
@[simp] theorem State.setStatus_shiftSource (st : Status) : (s.setStatus st).shiftSource = s.shiftSource := rfl
@[simp] theorem State.setStatus_inputs (st : Status) : (s.setStatus st).inputs = s.inputs := rfl
@[simp] theorem State.setStatus_draws (st : Status) : (s.setStatus st).draws = s.draws := rfl
@[simp] theorem State.setStatus_moves (st : Status) : (s.setStatus st).moves = s.moves := rfl
@[simp] theorem State.setStatus_movesDrawn (st : Status) : (s.setStatus st).movesDrawn = s.movesDrawn := rfl
@[simp] theorem State.setStatus_answer (st : Status) : (s.setStatus st).answer = s.answer := rfl

@[simp] theorem State.setInputs_V (inp : StepInputs) : (s.setInputs inp).V = s.V := rfl
@[simp] theorem State.setInputs_I (inp : StepInputs) : (s.setInputs inp).I = s.I := rfl
@[simp] theorem State.setInputs_PC (inp : StepInputs) : (s.setInputs inp).PC = s.PC := rfl
@[simp] theorem State.setInputs_stack (inp : StepInputs) : (s.setInputs inp).stack = s.stack := rfl
@[simp] theorem State.setInputs_DT (inp : StepInputs) : (s.setInputs inp).DT = s.DT := rfl
@[simp] theorem State.setInputs_ST (inp : StepInputs) : (s.setInputs inp).ST = s.ST := rfl
@[simp] theorem State.setInputs_fb (inp : StepInputs) : (s.setInputs inp).fb = s.fb := rfl
@[simp] theorem State.setInputs_mem (inp : StepInputs) : (s.setInputs inp).mem = s.mem := rfl
@[simp] theorem State.setInputs_status (inp : StepInputs) : (s.setInputs inp).status = s.status := rfl
@[simp] theorem State.setInputs_fontBase (inp : StepInputs) : (s.setInputs inp).fontBase = s.fontBase := rfl
@[simp] theorem State.setInputs_shiftSource (inp : StepInputs) : (s.setInputs inp).shiftSource = s.shiftSource := rfl
@[simp] theorem State.setInputs_inputs (inp : StepInputs) : (s.setInputs inp).inputs = inp := rfl
@[simp] theorem State.setInputs_draws (inp : StepInputs) : (s.setInputs inp).draws = s.draws := rfl
@[simp] theorem State.setInputs_moves (inp : StepInputs) : (s.setInputs inp).moves = s.moves := rfl
@[simp] theorem State.setInputs_movesDrawn (inp : StepInputs) : (s.setInputs inp).movesDrawn = s.movesDrawn := rfl
@[simp] theorem State.setInputs_answer (inp : StepInputs) : (s.setInputs inp).answer = s.answer := rfl

@[simp] theorem State.setMoves_V (ms : List HostMove) : (s.setMoves ms).V = s.V := rfl
@[simp] theorem State.setMoves_I (ms : List HostMove) : (s.setMoves ms).I = s.I := rfl
@[simp] theorem State.setMoves_PC (ms : List HostMove) : (s.setMoves ms).PC = s.PC := rfl
@[simp] theorem State.setMoves_stack (ms : List HostMove) : (s.setMoves ms).stack = s.stack := rfl
@[simp] theorem State.setMoves_DT (ms : List HostMove) : (s.setMoves ms).DT = s.DT := rfl
@[simp] theorem State.setMoves_ST (ms : List HostMove) : (s.setMoves ms).ST = s.ST := rfl
@[simp] theorem State.setMoves_fb (ms : List HostMove) : (s.setMoves ms).fb = s.fb := rfl
@[simp] theorem State.setMoves_mem (ms : List HostMove) : (s.setMoves ms).mem = s.mem := rfl
@[simp] theorem State.setMoves_status (ms : List HostMove) : (s.setMoves ms).status = s.status := rfl
@[simp] theorem State.setMoves_fontBase (ms : List HostMove) : (s.setMoves ms).fontBase = s.fontBase := rfl
@[simp] theorem State.setMoves_shiftSource (ms : List HostMove) : (s.setMoves ms).shiftSource = s.shiftSource := rfl
@[simp] theorem State.setMoves_inputs (ms : List HostMove) : (s.setMoves ms).inputs = s.inputs := rfl
@[simp] theorem State.setMoves_draws (ms : List HostMove) : (s.setMoves ms).draws = s.draws := rfl
@[simp] theorem State.setMoves_moves (ms : List HostMove) : (s.setMoves ms).moves = ms := rfl
@[simp] theorem State.setMoves_movesDrawn (ms : List HostMove) : (s.setMoves ms).movesDrawn = s.movesDrawn := rfl
@[simp] theorem State.setMoves_answer (ms : List HostMove) : (s.setMoves ms).answer = s.answer := rfl

@[simp] theorem State.countMove_V : (s.countMove).V = s.V := rfl
@[simp] theorem State.countMove_I : (s.countMove).I = s.I := rfl
@[simp] theorem State.countMove_PC : (s.countMove).PC = s.PC := rfl
@[simp] theorem State.countMove_stack : (s.countMove).stack = s.stack := rfl
@[simp] theorem State.countMove_DT : (s.countMove).DT = s.DT := rfl
@[simp] theorem State.countMove_ST : (s.countMove).ST = s.ST := rfl
@[simp] theorem State.countMove_fb : (s.countMove).fb = s.fb := rfl
@[simp] theorem State.countMove_mem : (s.countMove).mem = s.mem := rfl
@[simp] theorem State.countMove_status : (s.countMove).status = s.status := rfl
@[simp] theorem State.countMove_fontBase : (s.countMove).fontBase = s.fontBase := rfl
@[simp] theorem State.countMove_shiftSource : (s.countMove).shiftSource = s.shiftSource := rfl
@[simp] theorem State.countMove_inputs : (s.countMove).inputs = s.inputs := rfl
@[simp] theorem State.countMove_draws : (s.countMove).draws = s.draws := rfl
@[simp] theorem State.countMove_moves : (s.countMove).moves = s.moves := rfl
@[simp] theorem State.countMove_movesDrawn : (s.countMove).movesDrawn = s.movesDrawn + 1 := rfl
@[simp] theorem State.countMove_answer : (s.countMove).answer = s.answer := rfl

@[simp] theorem State.requestFirst_V : (s.requestFirst).V = s.V := rfl
@[simp] theorem State.requestFirst_I : (s.requestFirst).I = s.I := rfl
@[simp] theorem State.requestFirst_PC : (s.requestFirst).PC = s.PC := rfl
@[simp] theorem State.requestFirst_stack : (s.requestFirst).stack = s.stack := rfl
@[simp] theorem State.requestFirst_DT : (s.requestFirst).DT = s.DT := rfl
@[simp] theorem State.requestFirst_ST : (s.requestFirst).ST = s.ST := rfl
@[simp] theorem State.requestFirst_fb : (s.requestFirst).fb = s.fb := rfl
@[simp] theorem State.requestFirst_mem : (s.requestFirst).mem = s.mem := rfl
@[simp] theorem State.requestFirst_status : (s.requestFirst).status = s.status := rfl
@[simp] theorem State.requestFirst_fontBase : (s.requestFirst).fontBase = s.fontBase := rfl
@[simp] theorem State.requestFirst_shiftSource : (s.requestFirst).shiftSource = s.shiftSource := rfl
@[simp] theorem State.requestFirst_inputs : (s.requestFirst).inputs = s.inputs := rfl
@[simp] theorem State.requestFirst_draws : (s.requestFirst).draws = s.draws := rfl
@[simp] theorem State.requestFirst_moves : (s.requestFirst).moves = .request s.inputs :: s.moves := rfl
@[simp] theorem State.requestFirst_movesDrawn : (s.requestFirst).movesDrawn = s.movesDrawn := rfl
@[simp] theorem State.requestFirst_answer : (s.requestFirst).answer = s.answer := rfl

@[simp] theorem State.setAnswer_V (a : Option Answer) : (s.setAnswer a).V = s.V := rfl
@[simp] theorem State.setAnswer_I (a : Option Answer) : (s.setAnswer a).I = s.I := rfl
@[simp] theorem State.setAnswer_PC (a : Option Answer) : (s.setAnswer a).PC = s.PC := rfl
@[simp] theorem State.setAnswer_stack (a : Option Answer) : (s.setAnswer a).stack = s.stack := rfl
@[simp] theorem State.setAnswer_DT (a : Option Answer) : (s.setAnswer a).DT = s.DT := rfl
@[simp] theorem State.setAnswer_ST (a : Option Answer) : (s.setAnswer a).ST = s.ST := rfl
@[simp] theorem State.setAnswer_fb (a : Option Answer) : (s.setAnswer a).fb = s.fb := rfl
@[simp] theorem State.setAnswer_mem (a : Option Answer) : (s.setAnswer a).mem = s.mem := rfl
@[simp] theorem State.setAnswer_status (a : Option Answer) : (s.setAnswer a).status = s.status := rfl
@[simp] theorem State.setAnswer_fontBase (a : Option Answer) : (s.setAnswer a).fontBase = s.fontBase := rfl
@[simp] theorem State.setAnswer_shiftSource (a : Option Answer) : (s.setAnswer a).shiftSource = s.shiftSource := rfl
@[simp] theorem State.setAnswer_inputs (a : Option Answer) : (s.setAnswer a).inputs = s.inputs := rfl
@[simp] theorem State.setAnswer_draws (a : Option Answer) : (s.setAnswer a).draws = s.draws := rfl
@[simp] theorem State.setAnswer_moves (a : Option Answer) : (s.setAnswer a).moves = s.moves := rfl
@[simp] theorem State.setAnswer_movesDrawn (a : Option Answer) : (s.setAnswer a).movesDrawn = s.movesDrawn := rfl
@[simp] theorem State.setAnswer_answer (a : Option Answer) : (s.setAnswer a).answer = a := rfl

@[simp] theorem State.consumeEvent_V : (s.consumeEvent).V = s.V := rfl
@[simp] theorem State.consumeEvent_I : (s.consumeEvent).I = s.I := rfl
@[simp] theorem State.consumeEvent_PC : (s.consumeEvent).PC = s.PC := rfl
@[simp] theorem State.consumeEvent_stack : (s.consumeEvent).stack = s.stack := rfl
@[simp] theorem State.consumeEvent_DT : (s.consumeEvent).DT = s.DT := rfl
@[simp] theorem State.consumeEvent_ST : (s.consumeEvent).ST = s.ST := rfl
@[simp] theorem State.consumeEvent_fb : (s.consumeEvent).fb = s.fb := rfl
@[simp] theorem State.consumeEvent_mem : (s.consumeEvent).mem = s.mem := rfl
@[simp] theorem State.consumeEvent_status : (s.consumeEvent).status = s.status := rfl
@[simp] theorem State.consumeEvent_fontBase : (s.consumeEvent).fontBase = s.fontBase := rfl
@[simp] theorem State.consumeEvent_shiftSource : (s.consumeEvent).shiftSource = s.shiftSource := rfl
@[simp] theorem State.consumeEvent_inputs : (s.consumeEvent).inputs = { s.inputs with keyEvent := none } := rfl
@[simp] theorem State.consumeEvent_draws : (s.consumeEvent).draws = s.draws := rfl
@[simp] theorem State.consumeEvent_moves : (s.consumeEvent).moves = s.moves := rfl
@[simp] theorem State.consumeEvent_movesDrawn : (s.consumeEvent).movesDrawn = s.movesDrawn := rfl
@[simp] theorem State.consumeEvent_answer : (s.consumeEvent).answer = s.answer := rfl

@[simp] theorem State.drawInputs_V : (s.drawInputs).V = s.V := rfl
@[simp] theorem State.drawInputs_I : (s.drawInputs).I = s.I := rfl
@[simp] theorem State.drawInputs_PC : (s.drawInputs).PC = s.PC := rfl
@[simp] theorem State.drawInputs_stack : (s.drawInputs).stack = s.stack := rfl
@[simp] theorem State.drawInputs_DT : (s.drawInputs).DT = s.DT := rfl
@[simp] theorem State.drawInputs_ST : (s.drawInputs).ST = s.ST := rfl
@[simp] theorem State.drawInputs_fb : (s.drawInputs).fb = s.fb := rfl
@[simp] theorem State.drawInputs_mem : (s.drawInputs).mem = s.mem := rfl
@[simp] theorem State.drawInputs_status : (s.drawInputs).status = s.status := rfl
@[simp] theorem State.drawInputs_fontBase : (s.drawInputs).fontBase = s.fontBase := rfl
@[simp] theorem State.drawInputs_shiftSource : (s.drawInputs).shiftSource = s.shiftSource := rfl
@[simp] theorem State.drawInputs_inputs : (s.drawInputs).inputs = Config.freeInputs s.draws := rfl
@[simp] theorem State.drawInputs_draws : (s.drawInputs).draws = s.draws + 1 := rfl
@[simp] theorem State.drawInputs_moves : (s.drawInputs).moves = s.moves := rfl
@[simp] theorem State.drawInputs_movesDrawn : (s.drawInputs).movesDrawn = s.movesDrawn := rfl
@[simp] theorem State.drawInputs_answer : (s.drawInputs).answer = s.answer := rfl

@[simp] theorem State.writeWithFlag_V (x : Reg) (r : Byte) (t : Bool) : (s.writeWithFlag x r t).V = (s.V.set x.val r).set regF.val (b2u t) := rfl
@[simp] theorem State.writeWithFlag_I (x : Reg) (r : Byte) (t : Bool) : (s.writeWithFlag x r t).I = s.I := rfl
@[simp] theorem State.writeWithFlag_PC (x : Reg) (r : Byte) (t : Bool) : (s.writeWithFlag x r t).PC = s.PC := rfl
@[simp] theorem State.writeWithFlag_stack (x : Reg) (r : Byte) (t : Bool) : (s.writeWithFlag x r t).stack = s.stack := rfl
@[simp] theorem State.writeWithFlag_DT (x : Reg) (r : Byte) (t : Bool) : (s.writeWithFlag x r t).DT = s.DT := rfl
@[simp] theorem State.writeWithFlag_ST (x : Reg) (r : Byte) (t : Bool) : (s.writeWithFlag x r t).ST = s.ST := rfl
@[simp] theorem State.writeWithFlag_fb (x : Reg) (r : Byte) (t : Bool) : (s.writeWithFlag x r t).fb = s.fb := rfl
@[simp] theorem State.writeWithFlag_mem (x : Reg) (r : Byte) (t : Bool) : (s.writeWithFlag x r t).mem = s.mem := rfl
@[simp] theorem State.writeWithFlag_status (x : Reg) (r : Byte) (t : Bool) : (s.writeWithFlag x r t).status = s.status := rfl
@[simp] theorem State.writeWithFlag_fontBase (x : Reg) (r : Byte) (t : Bool) : (s.writeWithFlag x r t).fontBase = s.fontBase := rfl
@[simp] theorem State.writeWithFlag_shiftSource (x : Reg) (r : Byte) (t : Bool) : (s.writeWithFlag x r t).shiftSource = s.shiftSource := rfl
@[simp] theorem State.writeWithFlag_inputs (x : Reg) (r : Byte) (t : Bool) : (s.writeWithFlag x r t).inputs = s.inputs := rfl
@[simp] theorem State.writeWithFlag_draws (x : Reg) (r : Byte) (t : Bool) : (s.writeWithFlag x r t).draws = s.draws := rfl
@[simp] theorem State.writeWithFlag_moves (x : Reg) (r : Byte) (t : Bool) : (s.writeWithFlag x r t).moves = s.moves := rfl
@[simp] theorem State.writeWithFlag_movesDrawn (x : Reg) (r : Byte) (t : Bool) : (s.writeWithFlag x r t).movesDrawn = s.movesDrawn := rfl
@[simp] theorem State.writeWithFlag_answer (x : Reg) (r : Byte) (t : Bool) : (s.writeWithFlag x r t).answer = s.answer := rfl

/-! `skipIf` and the host's actions. -/

@[simp] theorem State.skipIf_V (c : Bool) : (s.skipIf c).V = s.V := by
  unfold State.skipIf; split <;> rfl
@[simp] theorem State.skipIf_I (c : Bool) : (s.skipIf c).I = s.I := by
  unfold State.skipIf; split <;> rfl
@[simp] theorem State.skipIf_PC (c : Bool) : (s.skipIf c).PC = if c then s.PC + 2#16 else s.PC := by
  unfold State.skipIf; split <;> rfl
@[simp] theorem State.skipIf_stack (c : Bool) : (s.skipIf c).stack = s.stack := by
  unfold State.skipIf; split <;> rfl
@[simp] theorem State.skipIf_DT (c : Bool) : (s.skipIf c).DT = s.DT := by
  unfold State.skipIf; split <;> rfl
@[simp] theorem State.skipIf_ST (c : Bool) : (s.skipIf c).ST = s.ST := by
  unfold State.skipIf; split <;> rfl
@[simp] theorem State.skipIf_fb (c : Bool) : (s.skipIf c).fb = s.fb := by
  unfold State.skipIf; split <;> rfl
@[simp] theorem State.skipIf_mem (c : Bool) : (s.skipIf c).mem = s.mem := by
  unfold State.skipIf; split <;> rfl
@[simp] theorem State.skipIf_status (c : Bool) : (s.skipIf c).status = s.status := by
  unfold State.skipIf; split <;> rfl
@[simp] theorem State.skipIf_fontBase (c : Bool) : (s.skipIf c).fontBase = s.fontBase := by
  unfold State.skipIf; split <;> rfl
@[simp] theorem State.skipIf_shiftSource (c : Bool) : (s.skipIf c).shiftSource = s.shiftSource := by
  unfold State.skipIf; split <;> rfl
@[simp] theorem State.skipIf_inputs (c : Bool) : (s.skipIf c).inputs = s.inputs := by
  unfold State.skipIf; split <;> rfl
@[simp] theorem State.skipIf_draws (c : Bool) : (s.skipIf c).draws = s.draws := by
  unfold State.skipIf; split <;> rfl
@[simp] theorem State.skipIf_moves (c : Bool) : (s.skipIf c).moves = s.moves := by
  unfold State.skipIf; split <;> rfl
@[simp] theorem State.skipIf_movesDrawn (c : Bool) : (s.skipIf c).movesDrawn = s.movesDrawn := by
  unfold State.skipIf; split <;> rfl
@[simp] theorem State.skipIf_answer (c : Bool) : (s.skipIf c).answer = s.answer := by
  unfold State.skipIf; split <;> rfl

@[simp] theorem State.moveTaken_V : (s.moveTaken).V = s.V := by
  unfold State.moveTaken; split <;> rfl
@[simp] theorem State.moveTaken_I : (s.moveTaken).I = s.I := by
  unfold State.moveTaken; split <;> rfl
@[simp] theorem State.moveTaken_PC : (s.moveTaken).PC = s.PC := by
  unfold State.moveTaken; split <;> rfl
@[simp] theorem State.moveTaken_stack : (s.moveTaken).stack = s.stack := by
  unfold State.moveTaken; split <;> rfl
@[simp] theorem State.moveTaken_DT : (s.moveTaken).DT = s.DT := by
  unfold State.moveTaken; split <;> rfl
@[simp] theorem State.moveTaken_ST : (s.moveTaken).ST = s.ST := by
  unfold State.moveTaken; split <;> rfl
@[simp] theorem State.moveTaken_fb : (s.moveTaken).fb = s.fb := by
  unfold State.moveTaken; split <;> rfl
@[simp] theorem State.moveTaken_mem : (s.moveTaken).mem = s.mem := by
  unfold State.moveTaken; split <;> rfl
@[simp] theorem State.moveTaken_status : (s.moveTaken).status = s.status := by
  unfold State.moveTaken; split <;> rfl
@[simp] theorem State.moveTaken_fontBase : (s.moveTaken).fontBase = s.fontBase := by
  unfold State.moveTaken; split <;> rfl
@[simp] theorem State.moveTaken_shiftSource : (s.moveTaken).shiftSource = s.shiftSource := by
  unfold State.moveTaken; split <;> rfl
@[simp] theorem State.moveTaken_inputs : (s.moveTaken).inputs = s.inputs := by
  unfold State.moveTaken; split <;> rfl
@[simp] theorem State.moveTaken_draws : (s.moveTaken).draws = s.draws := by
  unfold State.moveTaken; split <;> rfl
@[simp] theorem State.moveTaken_answer : (s.moveTaken).answer = s.answer := by
  unfold State.moveTaken; split <;> rfl
/-- The next move is the first of the plan, and is taken off it. -/
theorem State.nextMove_of_cons {m : HostMove} {rest : List HostMove} (h : s.moves = m :: rest) :
    s.nextMove = m ∧ s.moveTaken = s.setMoves rest := by simp [State.nextMove, State.moveTaken, h]
/-- With no plan the next move is a free one, and is counted. -/
theorem State.nextMove_of_nil (h : s.moves = []) :
    s.nextMove = Config.freeMoves s.movesDrawn ∧ s.moveTaken = s.countMove := by simp [State.nextMove, State.moveTaken, h]

@[simp] theorem hostTick_V : (hostTick s).V = s.V := rfl
@[simp] theorem hostTick_I : (hostTick s).I = s.I := rfl
@[simp] theorem hostTick_PC : (hostTick s).PC = s.PC := rfl
@[simp] theorem hostTick_stack : (hostTick s).stack = s.stack := rfl
@[simp] theorem hostTick_DT : (hostTick s).DT = tickTimer s.DT := rfl
@[simp] theorem hostTick_ST : (hostTick s).ST = tickTimer s.ST := rfl
@[simp] theorem hostTick_fb : (hostTick s).fb = s.fb := rfl
@[simp] theorem hostTick_mem : (hostTick s).mem = s.mem := rfl
@[simp] theorem hostTick_status : (hostTick s).status = s.status := rfl
@[simp] theorem hostTick_fontBase : (hostTick s).fontBase = s.fontBase := rfl
@[simp] theorem hostTick_shiftSource : (hostTick s).shiftSource = s.shiftSource := rfl
@[simp] theorem hostTick_inputs : (hostTick s).inputs = s.inputs := rfl
@[simp] theorem hostTick_draws : (hostTick s).draws = s.draws := rfl
@[simp] theorem hostTick_moves : (hostTick s).moves = s.moves := rfl
@[simp] theorem hostTick_movesDrawn : (hostTick s).movesDrawn = s.movesDrawn := rfl
@[simp] theorem hostTick_answer : (hostTick s).answer = none := rfl

@[simp] theorem hostReset_V : (hostReset s).V = Vector.replicate 16 0x00#8 := rfl
@[simp] theorem hostReset_I : (hostReset s).I = 0x0000#16 := rfl
@[simp] theorem hostReset_PC : (hostReset s).PC = 0x0200#16 := rfl
@[simp] theorem hostReset_stack : (hostReset s).stack = [] := rfl
@[simp] theorem hostReset_DT : (hostReset s).DT = 0x00#8 := rfl
@[simp] theorem hostReset_ST : (hostReset s).ST = 0x00#8 := rfl
@[simp] theorem hostReset_fb : (hostReset s).fb = fbClear := rfl
@[simp] theorem hostReset_mem : (hostReset s).mem = s.mem := rfl
@[simp] theorem hostReset_status : (hostReset s).status = .running := rfl
@[simp] theorem hostReset_fontBase : (hostReset s).fontBase = s.fontBase := rfl
@[simp] theorem hostReset_shiftSource : (hostReset s).shiftSource = s.shiftSource := rfl
@[simp] theorem hostReset_inputs : (hostReset s).inputs = s.inputs := rfl
@[simp] theorem hostReset_draws : (hostReset s).draws = s.draws := rfl
@[simp] theorem hostReset_moves : (hostReset s).moves = s.moves := rfl
@[simp] theorem hostReset_movesDrawn : (hostReset s).movesDrawn = s.movesDrawn := rfl
@[simp] theorem hostReset_answer : (hostReset s).answer = none := rfl

end Sys2Proof.Machine
end

