-- ==== Sys2Proof/Laws/Memory.lean ====
section
/-! SUPPORT. The laws of memory: a read after a write, what a run of writes changes, the canonical form kept, and when a
range is out of bounds. None needs the canonical form as a premise but the form's own lemmas. -/

namespace Sys2Proof.Machine

theorem Memory.read_dropCell (m : Memory) (a b : Nat) :
    Memory.read (Memory.dropCell m a) b = if b = a then Memory.unlisted else Memory.read m b := by
  unfold Memory.dropCell
  induction m with
  | nil => simp [Memory.read]
  | cons c m ih =>
    by_cases hc : c.1 = a
    · rw [List.filter_cons_of_neg (by simp [hc]), ih]
      split
      · rfl
      · rename_i hb
        simp [Memory.read, show ¬ c.1 = b by omega]
    · rw [List.filter_cons_of_pos (by simp [hc])]
      simp only [Memory.read, ih]
      split
      · rename_i hb
        simp [show ¬ b = a by omega]
      · rfl

theorem Memory.read_insertCell (m : Memory) (a b : Nat) (v : Byte) (h : ∀ c ∈ m, c.1 ≠ a) :
    Memory.read (Memory.insertCell m a v) b = if b = a then v else Memory.read m b := by
  induction m with
  | nil => simp [Memory.insertCell, Memory.read, eq_comm]
  | cons c m ih =>
    have hc : c.1 ≠ a := h c (by simp)
    have ih := ih (fun d hd => h d (by simp [hd]))
    unfold Memory.insertCell
    split
    · simp only [Memory.read, ih]
      split
      · simp [show ¬ b = a by omega]
      · rfl
    · simp only [Memory.read]
      split
      · simp [show b = a by omega]
      · simp [show ¬ b = a by omega]

theorem Memory.dropCell_ne (m : Memory) (a : Nat) : ∀ c ∈ Memory.dropCell m a, c.1 ≠ a := by
  simp [Memory.dropCell]

/-- A read after a write: the written value at its address, every other address as before. -/
@[simp] theorem Memory.read_write (m : Memory) (a b : Nat) (v : Byte) :
    Memory.read (Memory.write m a v) b = if b = a then v else Memory.read m b := by
  unfold Memory.write
  split
  · rename_i h; rw [Memory.read_dropCell, h]
  · rw [Memory.read_insertCell _ _ _ _ (Memory.dropCell_ne m a), Memory.read_dropCell]
    split <;> rfl

/-- A run of writes: the bytes inside the run, every other address as before. -/
theorem Memory.read_writeBytes (m : Memory) (a b : Nat) (bs : List Byte) :
    Memory.read (Memory.writeBytes m a bs) b =
      if a ≤ b ∧ b < a + bs.length then bs.getD (b - a) 0#8 else Memory.read m b := by
  induction bs generalizing m a with
  | nil =>
    have : ¬ (a ≤ b ∧ b < a + 0) := by omega
    simp only [Memory.writeBytes, List.length_nil, this, if_false]
  | cons v bs ih =>
    rw [Memory.writeBytes, ih, Memory.read_write]
    by_cases hb : b = a
    · subst hb
      simp
    · by_cases hr : a + 1 ≤ b ∧ b < a + 1 + bs.length
      · have h2 : a ≤ b ∧ b < a + (v :: bs).length := by simp; omega
        rw [if_pos hr, if_pos h2, show b - a = (b - (a + 1)) + 1 by omega]
        simp
      · have h2 : ¬ (a ≤ b ∧ b < a + (v :: bs).length) := by simp; omega
        rw [if_neg hr, if_neg h2, if_neg hb]

theorem Memory.read_writeBytes_outside (m : Memory) (a b : Nat) (bs : List Byte) (h : b < a ∨ a + bs.length ≤ b) :
    Memory.read (Memory.writeBytes m a bs) b = Memory.read m b := by
  rw [Memory.read_writeBytes, if_neg (by omega)]

@[simp] theorem Memory.length_readBytes (m : Memory) (a n : Nat) : (Memory.readBytes m a n).length = n := by
  induction n generalizing a with
  | zero => rfl
  | succ n ih => simp [Memory.readBytes, ih]

theorem Memory.getElem_readBytes (m : Memory) (a n k : Nat) (h : k < (Memory.readBytes m a n).length) :
    (Memory.readBytes m a n)[k] = Memory.read m (a + k) := by
  induction n generalizing a k with
  | zero => simp at h
  | succ n ih =>
    cases k with
    | zero => simp [Memory.readBytes]
    | succ k => simp only [Memory.readBytes, List.getElem_cons_succ, ih]; congr 1; omega

/-! ### The canonical form -/

theorem Memory.wfFrom_mono (m : Memory) (lo lo' : Nat) (h : lo' ≤ lo) (hw : Memory.wfFrom lo m = true) :
    Memory.wfFrom lo' m = true := by
  cases m with
  | nil => rfl
  | cons c m =>
    simp only [Memory.wfFrom, Bool.and_eq_true, decide_eq_true_eq] at hw ⊢
    exact ⟨⟨⟨by omega, hw.1.1.2⟩, hw.1.2⟩, hw.2⟩

theorem Memory.wfFrom_dropCell (m : Memory) (lo a : Nat) (h : Memory.wfFrom lo m = true) :
    Memory.wfFrom lo (Memory.dropCell m a) = true := by
  unfold Memory.dropCell
  induction m generalizing lo with
  | nil => exact h
  | cons c m ih =>
    simp only [Memory.wfFrom, Bool.and_eq_true, decide_eq_true_eq] at h
    by_cases hc : c.1 = a
    · rw [List.filter_cons_of_neg (by simp [hc])]
      exact ih lo (Memory.wfFrom_mono _ _ _ (by omega) h.2)
    · rw [List.filter_cons_of_pos (by simp [hc])]
      simp only [Memory.wfFrom, Bool.and_eq_true, decide_eq_true_eq]
      exact ⟨h.1, ih _ h.2⟩

theorem Memory.wfFrom_insertCell (m : Memory) (lo a : Nat) (v : Byte) (hlo : lo ≤ a) (ha : a ≤ Config.lastAddr)
    (hv : v ≠ Memory.unlisted) (hne : ∀ c ∈ m, c.1 ≠ a) (h : Memory.wfFrom lo m = true) :
    Memory.wfFrom lo (Memory.insertCell m a v) = true := by
  induction m generalizing lo with
  | nil => simp [Memory.insertCell, Memory.wfFrom, hlo, ha, hv]
  | cons c m ih =>
    have hc : c.1 ≠ a := hne c (by simp)
    simp only [Memory.wfFrom, Bool.and_eq_true, decide_eq_true_eq] at h
    unfold Memory.insertCell
    split
    · simp only [Memory.wfFrom, Bool.and_eq_true, decide_eq_true_eq]
      exact ⟨h.1, ih _ (by omega) (fun d hd => hne d (by simp [hd])) h.2⟩
    · simp only [Memory.wfFrom, Bool.and_eq_true, decide_eq_true_eq]
      exact ⟨⟨⟨hlo, ha⟩, by simp [hv]⟩, ⟨⟨by omega, h.1.1.2⟩, h.1.2⟩, h.2⟩

/-- A write inside memory keeps the canonical form. -/
theorem Memory.wf_write (m : Memory) (a : Nat) (v : Byte) (ha : a ≤ Config.lastAddr) (h : Memory.wf m = true) :
    Memory.wf (Memory.write m a v) = true := by
  unfold Memory.write Memory.wf
  split
  · exact Memory.wfFrom_dropCell _ _ _ h
  · rename_i hv
    exact Memory.wfFrom_insertCell _ _ _ _ (Nat.zero_le _) ha hv (Memory.dropCell_ne m a) (Memory.wfFrom_dropCell _ _ _ h)

/-- A run of writes inside memory keeps the canonical form. -/
theorem Memory.wf_writeBytes (m : Memory) (a : Nat) (bs : List Byte) (ha : a + bs.length ≤ Config.lastAddr + 1)
    (h : Memory.wf m = true) : Memory.wf (Memory.writeBytes m a bs) = true := by
  induction bs generalizing m a with
  | nil => exact h
  | cons b bs ih =>
    simp only [List.length_cons] at ha
    exact ih _ _ (by omega) (Memory.wf_write _ _ _ (by omega) h)

/-- Below the first address a canonical list may hold, every address reads as unlisted. -/
theorem Memory.read_of_lt_wfFrom (m : Memory) (lo a : Nat) (h : Memory.wfFrom lo m = true) (ha : a < lo) :
    Memory.read m a = Memory.unlisted := by
  induction m generalizing lo with
  | nil => rfl
  | cons c m ih =>
    simp only [Memory.wfFrom, Bool.and_eq_true, decide_eq_true_eq] at h
    simp [Memory.read, show ¬ c.1 = a by omega, ih _ h.2 (by omega)]

/-! ### Ranges -/

/-- When a range is out of bounds, and the address reported (R80): the lowest one. -/
theorem firstOutOfRange_eq (a n : Nat) :
    firstOutOfRange a n = if n = 0 ∨ a + n ≤ 0x1000 then none else some (max a 0x1000) := by
  induction n generalizing a with
  | zero => simp [firstOutOfRange]
  | succ n ih =>
    rw [firstOutOfRange, ih]
    by_cases h : Config.lastAddr < a
    · have : ¬ (n + 1 = 0 ∨ a + (n + 1) ≤ 0x1000) := by unfold Config.lastAddr at h; omega
      rw [if_pos h, if_neg this, Nat.max_eq_left (by unfold Config.lastAddr at h; omega)]
    · rw [if_neg h]
      have h' : a ≤ 0xFFF := by unfold Config.lastAddr at h; omega
      by_cases hn : a + (n + 1) ≤ 0x1000
      · rw [if_pos (by omega), if_pos (by omega)]
      · rw [if_neg (by omega), if_neg (by omega)]
        congr 1; omega

theorem firstOutOfRange_none {a n : Nat} : firstOutOfRange a n = none ↔ n = 0 ∨ a + n ≤ 0x1000 := by
  rw [firstOutOfRange_eq]; split <;> simp_all

/-- The big-endian fetch (R73): both bytes in range, or the first address that is not. -/
theorem fetchWord_in_range (m : Memory) (a : Nat) (h : a + 2 ≤ 0x1000) :
    fetchWord m a = .ok (wordOfBytes (Memory.read m a) (Memory.read m (a + 1))) := by
  simp [fetchWord, firstOutOfRange_none.2 (Or.inr h)]

/-- A range that is out of bounds, read from its report: the address is above 0xFFF. -/
theorem lastAddr_lt_of_firstOutOfRange {a n b : Nat} (h : firstOutOfRange a n = some b) : Config.lastAddr < b := by
  rw [firstOutOfRange_eq] at h
  split at h
  · cases h
  · cases h; unfold Config.lastAddr; omega

end Sys2Proof.Machine
end

