-- ==== Sys2Proof/Laws/Outcome.lean ====
section
/-! SUPPORT. What the ends of a step can answer, and what one move of the machine can do (one inversion lemma per shared
operation). -/

namespace Sys2Proof.Machine

/-- Completing answers exactly the committed state, with `Ok`. -/
theorem complete_next {s t : State} (h : complete s = .next t) : t = s.setAnswer (some .ok) := by
  simpa [complete, eq_comm] using h

/-- Holding answers exactly the state before, with `Hold`. -/
theorem hold_next {s t : State} (h : hold s = .next t) : t = s.setAnswer (some .hold) := by
  simpa [hold, eq_comm] using h

/-- Raising answers the state before with the status Halted(e) and the answer `Err(e)`. -/
theorem raise_next {s t : State} {w : Option Word} {k : Fault} {a : Option Nat} (h : raise s w k a = .next t) :
    t = (s.setStatus (.halted ⟨k, s.PC, w, a⟩)).setAnswer (some (.err ⟨k, s.PC, w, a⟩)) := by
  simpa [raise, eq_comm] using h

/-- A request's outcome with its inputs spent comes from a next state of the request. -/
theorem spendInputs_next {r : Result} {t : State} (h : spendInputs r = .next t) : ∃ u, r = .next u ∧ t = u.drawInputs := by
  cases r with
  | next u => exact ⟨u, rfl, by simpa [spendInputs, eq_comm] using h⟩
  | fault r => simp [spendInputs] at h
  | refused r => simp [spendInputs] at h

/-- What running one instruction can be: a failed fetch, an unknown word, or the execute phase of the decoded
instruction. -/
theorem runInstruction_cases (s : State) :
    (∃ a, fetchWord s.mem s.PC.toNat = .error a ∧ runInstruction s = raise s none .outOfBounds (some a)) ∨
    (∃ w e, fetchWord s.mem s.PC.toNat = .ok w ∧ decode w = .error e ∧
      runInstruction s = raise s (some w) .unknownOpcode none) ∨
    (∃ w i, fetchWord s.mem s.PC.toNat = .ok w ∧ decode w = .ok i ∧ runInstruction s = exec i s) := by
  unfold runInstruction
  cases hf : fetchWord s.mem s.PC.toNat with
  | error a => exact .inl ⟨a, rfl, rfl⟩
  | ok w =>
    cases hd : decode w with
    | error e => exact .inr (.inl ⟨w, e, rfl, hd, by simp [hd]⟩)
    | ok i => exact .inr (.inr ⟨w, i, rfl, hd, by simp [hd]⟩)

/-- What one move can be, planned or free: a step request with the inputs it brings, or one of the host's three actions. -/
theorem advanceMachine_cases (s : State) :
    (∃ inp, s.nextMove = .request inp ∧ advanceMachine s = spendInputs (answerRequest (s.moveTaken.setInputs inp))) ∨
    (s.nextMove = .reset ∧ advanceMachine s = .next (hostReset s.moveTaken)) ∨
    (∃ bytes, s.nextMove = .load bytes ∧ advanceMachine s = .next (applyLoad bytes s.moveTaken)) ∨
    (s.nextMove = .tick ∧ advanceMachine s = .next (hostTick s.moveTaken)) := by
  unfold advanceMachine
  cases s.nextMove with
  | reset => exact .inr (.inl ⟨rfl, rfl⟩)
  | load bytes => exact .inr (.inr (.inl ⟨bytes, rfl, rfl⟩))
  | tick => exact .inr (.inr (.inr ⟨rfl, rfl⟩))
  | request inp => exact .inl ⟨inp, rfl, rfl⟩

/-- What a `Load` does: it fails and only the loader's answer changes, or it writes the bytes from 0x200. -/
theorem applyLoad_cases (bytes : List Byte) (s : State) :
    (Config.loadMax < bytes.length ∧ applyLoad bytes s = s.setAnswer (some .programTooLarge)) ∨
    (bytes.length ≤ Config.loadMax ∧
      applyLoad bytes s = (s.setMem (Memory.writeBytes s.mem Config.progBase bytes)).setAnswer none) := by
  unfold applyLoad hostLoad
  by_cases h : Config.loadMax < bytes.length
  · exact .inl ⟨h, by simp [h]⟩
  · exact .inr ⟨by omega, by simp [h]⟩

end Sys2Proof.Machine
end

