-- ==== Sys2Proof/Laws/Exec.lean ====
section
/-! SUPPORT. What the execute phase can do, said once: it completes, raises one error of its instruction, or holds. -/

namespace Sys2Proof.Machine

/-- The range check of a memory instruction, from its report: the run passes 0xFFF. -/
theorem lt_of_firstOutOfRange {a n b : Nat} (h : firstOutOfRange a n = some b) : 0 < n ∧ 0x1000 < a + n := by
  rw [firstOutOfRange_eq] at h
  split at h
  · cases h
  · omega

/-- What raising means for the error record: the kind fits the instruction (R307), and an address above 0xFFF goes with
`OutOfBounds` only (R300). -/
def RaisesFor (i : Instr) (s : State) (k : Fault) (a : Option Nat) : Prop :=
  exec i s = raise s (some (encode i)) k a ∧ ErrorCase s k i ∧ (k = .outOfBounds ↔ a.isSome = true) ∧
    ∀ b, a = some b → Config.lastAddr < b

/-- The inversion lemma of the execute phase. -/
theorem exec_outcome (i : Instr) (s : State) :
    (∃ u, exec i s = complete u) ∨ (∃ k a, RaisesFor i s k a) ∨
    (∃ x, i = .ldVxK x ∧ s.inputs.keyEvent = none ∧ exec i s = hold s) := by
  cases i
  case ret =>
    simp only [exec, execRet, RaisesFor]
    cases h : s.stack with
    | nil => exact .inr (.inl ⟨_, _, rfl, by simp [ErrorCase, h], by simp, by simp⟩)
    | cons a r => exact .inl ⟨_, rfl⟩
  case sys nnn => exact .inr (.inl ⟨_, _, rfl, by simp [ErrorCase], by simp, by simp⟩)
  case call nnn =>
    simp only [exec, execCall, push, RaisesFor]
    by_cases h : s.stack.length < Config.stackCap
    · simp only [h, if_true]; exact .inl ⟨_, rfl⟩
    · simp only [h, if_false]
      exact .inr (.inl ⟨_, _, rfl, ⟨by simpa using h, rfl⟩, by simp, by simp⟩)
  case drw x y n =>
    simp only [exec, execDrw, RaisesFor]
    cases h : firstOutOfRange s.indexAddr n.val with
    | none => exact .inl ⟨_, rfl⟩
    | some a =>
      have hr := lt_of_firstOutOfRange h
      refine .inr (.inl ⟨_, _, rfl, ?_, by simp, fun b hb => by cases hb; exact lastAddr_lt_of_firstOutOfRange h⟩)
      simp only [ErrorCase, State.indexAddr, and_true] at hr ⊢
      exact ⟨by omega, by omega⟩
  case ldB x =>
    simp only [exec, execLdB, RaisesFor]
    cases h : firstOutOfRange s.indexAddr 3 with
    | none => exact .inl ⟨_, rfl⟩
    | some a =>
      have hr := lt_of_firstOutOfRange h
      refine .inr (.inl ⟨_, _, rfl, ?_, by simp, fun b hb => by cases hb; exact lastAddr_lt_of_firstOutOfRange h⟩)
      simp only [ErrorCase, State.indexAddr, and_true] at hr ⊢
      omega
  case stRegs x =>
    simp only [exec, execStRegs, RaisesFor]
    cases h : firstOutOfRange s.indexAddr (x.val + 1) with
    | none => exact .inl ⟨_, rfl⟩
    | some a =>
      have hr := lt_of_firstOutOfRange h
      refine .inr (.inl ⟨_, _, rfl, ?_, by simp, fun b hb => by cases hb; exact lastAddr_lt_of_firstOutOfRange h⟩)
      simp only [ErrorCase, State.indexAddr, and_true] at hr ⊢
      omega
  case ldRegs x =>
    simp only [exec, execLdRegs, RaisesFor]
    cases h : firstOutOfRange s.indexAddr (x.val + 1) with
    | none => exact .inl ⟨_, rfl⟩
    | some a =>
      have hr := lt_of_firstOutOfRange h
      refine .inr (.inl ⟨_, _, rfl, ?_, by simp, fun b hb => by cases hb; exact lastAddr_lt_of_firstOutOfRange h⟩)
      simp only [ErrorCase, State.indexAddr, and_true] at hr ⊢
      omega
  case ldVxK x =>
    cases h : s.inputs.keyEvent with
    | none => exact .inr (.inr ⟨x, rfl, rfl, by simp [exec, execLdVxK, h]⟩)
    | some k => exact .inl ⟨_, by simp only [exec, execLdVxK, h]; rfl⟩
  all_goals exact .inl ⟨_, rfl⟩

/-- A property of an instruction's next state holds if it holds of the committed state, and of the state before with
another status and answer: errors and holds change nothing else. -/
theorem exec_next_induction (P : Instr → State → State → Prop)
    (hcomplete : ∀ i s u, exec i s = complete u → P i s (u.setAnswer (some .ok)))
    (hraise : ∀ i s st a, P i s ((s.setStatus st).setAnswer a)) (hhold : ∀ i s a, P i s (s.setAnswer a)) :
    ∀ i s t, exec i s = .next t → P i s t := by
  intro i s t h
  rcases exec_outcome i s with ⟨u, hu⟩ | ⟨k, a, hu, -⟩ | ⟨x, -, -, hu⟩
  · rw [complete_next (hu ▸ h : complete u = .next t)]; exact hcomplete i s u hu
  · rw [raise_next (hu ▸ h : raise s _ k a = .next t)]; exact hraise ..
  · rw [hold_next (hu ▸ h : hold s = .next t)]; exact hhold ..

/-! What the host does next is not the machine's to change. -/

theorem State.hostMove_zero (s : State) : s.hostMove 0 = s.nextMove := by
  unfold State.hostMove State.nextMove
  cases s.moves <;> rfl

theorem State.moveTaken_hostMove (s : State) (j : Nat) : s.moveTaken.hostMove j = s.hostMove (j + 1) := by
  unfold State.hostMove State.moveTaken
  cases h : s.moves with
  | nil => simp [h]; congr 1; omega
  | cons m rest => simp

/-- Two states in which the host's plan and its free moves stand alike have the same host. -/
theorem State.hostMove_congr {s t : State} (hm : t.moves = s.moves) (hd : t.movesDrawn = s.movesDrawn) (j : Nat) :
    t.hostMove j = s.hostMove j := by simp [State.hostMove, hm, hd]

/-- The execute phase leaves the host's moves alone. -/
theorem exec_host {i : Instr} {s t : State} (h : exec i s = .next t) : t.moves = s.moves ∧ t.movesDrawn = s.movesDrawn := by
  cases i
  all_goals
    simp only [exec, execCls, execRet, execSys, execJp, execCall, execSeByte, execSneByte, execSeReg, execLdByte,
        execAddByte, execLdReg, execOrReg, execAndReg, execXorReg, execAddReg, execSubReg, execShr, execSubn, execShl,
        execSneReg, execLdI, execJpV0, execRnd, execDrw, execSkp, execSknp, execLdVxDT, execLdVxK, execLdDTVx,
        execLdSTVx, execAddI, execLdF, execLdB, execStRegs, execLdRegs, complete, raise, hold] at h
    try (repeat' split at h)
  all_goals
    cases h
    simp

end Sys2Proof.Machine
end

