-- ==== Sys2Proof/Laws/Framebuffer.lean ====
section
/-! SUPPORT. The laws of the framebuffer: reading after a clear, after a toggle, and after one row byte of a sprite. -/

namespace Sys2Proof.Machine

@[simp] theorem fbGet_fbClear (x : Fin 64) (y : Fin 32) : fbGet fbClear x y = false := by
  simp [fbGet, fbClear]

/-- Reading a pixel after a toggle: the toggled one is inverted, the others are as before. -/
@[simp] theorem fbGet_fbToggle (f : Framebuffer) (x px : Fin 64) (y py : Fin 32) :
    fbGet (fbToggle f x y) px py = if px = x ∧ py = y then !fbGet f px py else fbGet f px py := by
  unfold fbToggle fbGet
  by_cases hy : py = y
  · subst hy
    by_cases hx : px = x
    · subst hx; simp
    · have : x.val ≠ px.val := fun h => hx (Fin.ext h.symm)
      simp [Vector.getElem_set, this, hx]
  · have : y.val ≠ py.val := fun h => hy (Fin.ext h.symm)
    simp [Vector.getElem_set, this, hy]

/-- Two framebuffers that read alike are equal. -/
theorem fb_ext (f g : Framebuffer) (h : ∀ x y, fbGet f x y = fbGet g x y) : f = g := by
  ext y hy x hx
  exact h ⟨x, hx⟩ ⟨y, hy⟩

/-- Touching one pixel: the pixel after, and the collision bit. -/
theorem fbTouch_spec (x px : Fin 64) (y py : Fin 32) (acc : Framebuffer × Bool) :
    fbGet (fbTouch x y acc).1 px py = (if px = x ∧ py = y then !fbGet acc.1 px py else fbGet acc.1 px py) ∧
    (fbTouch x y acc).2 = (acc.2 || fbGet acc.1 x y) := by
  simp [fbTouch]

@[simp] theorem fbCol_val (x : Nat) : (fbCol x).val = x % 64 := rfl

@[simp] theorem fbRow_val (y : Nat) : (fbRow y).val = y % 32 := rfl

end Sys2Proof.Machine
end

