-- ==== Sys2Proof/Laws/PerInstr.lean ====
section
/-! SUPPORT. Per instruction: its word selects its row of the opcode map (R108), `encode i & mask = match`. -/

namespace Sys2Proof

/-! The bits of a word, from the fields it is put together from. -/

theorem getLsbD_wordNNN (f : BitVec 4) (nnn : Addr12) (i : Nat) :
    (wordNNN f nnn).getLsbD i = if i < 12 then nnn.getLsbD i else f.getLsbD (i - 12) := by
  exact BitVec.getLsbD_append

theorem getLsbD_wordXNN (f : BitVec 4) (x : Reg) (nn : Byte) (i : Nat) :
    (wordXNN f x nn).getLsbD i =
      if i < 8 then nn.getLsbD i else if i - 8 < 4 then x.val.testBit (i - 8) else f.getLsbD (i - 8 - 4) := by
  refine (BitVec.getLsbD_append (x := f ++ (BitVec.ofFin x : BitVec 4)) (y := nn)).trans ?_
  rw [BitVec.getLsbD_append]; rfl

theorem getLsbD_wordXYN (f : BitVec 4) (x y : Reg) (n : Fin 16) (i : Nat) :
    (wordXYN f x y n).getLsbD i =
      if i < 4 then n.val.testBit i else if i - 4 < 4 then y.val.testBit (i - 4)
      else if i - 4 - 4 < 4 then x.val.testBit (i - 4 - 4) else f.getLsbD (i - 4 - 4 - 4) := by
  refine (BitVec.getLsbD_append (x := f ++ (BitVec.ofFin x : BitVec 4) ++ (BitVec.ofFin y : BitVec 4))
    (y := (BitVec.ofFin n : BitVec 4))).trans ?_
  rw [BitVec.getLsbD_append, BitVec.getLsbD_append]; rfl

/-- The family mask leaves the family. -/
theorem wordNNN_and_family (f : BitVec 4) (nnn : Addr12) : wordNNN f nnn &&& 0xF000#16 = wordNNN f 0#12 := by
  apply BitVec.eq_of_getLsbD_eq
  intro i hi
  rw [BitVec.getLsbD_and, getLsbD_wordNNN, getLsbD_wordNNN]
  interval_cases i <;> simp

theorem wordXNN_and_family (f : BitVec 4) (x : Reg) (nn : Byte) : wordXNN f x nn &&& 0xF000#16 = wordNNN f 0#12 := by
  apply BitVec.eq_of_getLsbD_eq
  intro i hi
  rw [BitVec.getLsbD_and, getLsbD_wordXNN, getLsbD_wordNNN]
  interval_cases i <;> simp

theorem wordXYN_and_family (f : BitVec 4) (x y : Reg) (n : Fin 16) :
    wordXYN f x y n &&& 0xF000#16 = wordNNN f 0#12 := by
  apply BitVec.eq_of_getLsbD_eq
  intro i hi
  rw [BitVec.getLsbD_and, getLsbD_wordXYN, getLsbD_wordNNN]
  interval_cases i <;> simp

/-- The mask of formats REG_REG and ALU leaves the family and the low nibble. -/
theorem wordXYN_and_nibble (f : BitVec 4) (x y : Reg) (n : Fin 16) :
    wordXYN f x y n &&& 0xF00F#16 = wordXYN f 0 0 n := by
  apply BitVec.eq_of_getLsbD_eq
  intro i hi
  rw [BitVec.getLsbD_and, getLsbD_wordXYN, getLsbD_wordXYN]
  interval_cases i <;> simp

/-- The mask of format REG_OP leaves the family and the low byte. -/
theorem wordXNN_and_low (f : BitVec 4) (x : Reg) (nn : Byte) : wordXNN f x nn &&& 0xF0FF#16 = wordXNN f 0 nn := by
  apply BitVec.eq_of_getLsbD_eq
  intro i hi
  rw [BitVec.getLsbD_and, getLsbD_wordXNN, getLsbD_wordXNN]
  interval_cases i <;> simp

namespace Laws.MatchesTable

/-- The row's mask and match of R108. -/
def row : Instr → Word × Word
  | .cls => (0xFFFF#16, 0x00E0#16)
  | .ret => (0xFFFF#16, 0x00EE#16)
  | .sys _ => (0xF000#16, 0x0000#16)
  | .jp _ => (0xF000#16, 0x1000#16)
  | .call _ => (0xF000#16, 0x2000#16)
  | .seByte _ _ => (0xF000#16, 0x3000#16)
  | .sneByte _ _ => (0xF000#16, 0x4000#16)
  | .seReg _ _ => (0xF00F#16, 0x5000#16)
  | .ldByte _ _ => (0xF000#16, 0x6000#16)
  | .addByte _ _ => (0xF000#16, 0x7000#16)
  | .ldReg _ _ => (0xF00F#16, 0x8000#16)
  | .orReg _ _ => (0xF00F#16, 0x8001#16)
  | .andReg _ _ => (0xF00F#16, 0x8002#16)
  | .xorReg _ _ => (0xF00F#16, 0x8003#16)
  | .addReg _ _ => (0xF00F#16, 0x8004#16)
  | .subReg _ _ => (0xF00F#16, 0x8005#16)
  | .shr _ _ => (0xF00F#16, 0x8006#16)
  | .subn _ _ => (0xF00F#16, 0x8007#16)
  | .shl _ _ => (0xF00F#16, 0x800E#16)
  | .sneReg _ _ => (0xF00F#16, 0x9000#16)
  | .ldI _ => (0xF000#16, 0xA000#16)
  | .jpV0 _ => (0xF000#16, 0xB000#16)
  | .rnd _ _ => (0xF000#16, 0xC000#16)
  | .drw _ _ _ => (0xF000#16, 0xD000#16)
  | .skp _ => (0xF0FF#16, 0xE09E#16)
  | .sknp _ => (0xF0FF#16, 0xE0A1#16)
  | .ldVxDT _ => (0xF0FF#16, 0xF007#16)
  | .ldVxK _ => (0xF0FF#16, 0xF00A#16)
  | .ldDTVx _ => (0xF0FF#16, 0xF015#16)
  | .ldSTVx _ => (0xF0FF#16, 0xF018#16)
  | .addI _ => (0xF0FF#16, 0xF01E#16)
  | .ldF _ => (0xF0FF#16, 0xF029#16)
  | .ldB _ => (0xF0FF#16, 0xF033#16)
  | .stRegs _ => (0xF0FF#16, 0xF055#16)
  | .ldRegs _ => (0xF0FF#16, 0xF065#16)

/-- R108: a word selects a row when `w & mask = match`. -/
def Statement (i : Instr) : Prop := encode i &&& (row i).1 = (row i).2

theorem cls : Statement (.cls) := rfl

theorem ret : Statement (.ret) := rfl

theorem sys (nnn : Addr12) : Statement (.sys nnn) := (wordNNN_and_family _ _).trans rfl

theorem jp (nnn : Addr12) : Statement (.jp nnn) := (wordNNN_and_family _ _).trans rfl

theorem call (nnn : Addr12) : Statement (.call nnn) := (wordNNN_and_family _ _).trans rfl

theorem seByte (x : Reg) (nn : Byte) : Statement (.seByte x nn) := (wordXNN_and_family _ _ _).trans rfl

theorem sneByte (x : Reg) (nn : Byte) : Statement (.sneByte x nn) := (wordXNN_and_family _ _ _).trans rfl

theorem seReg (x : Reg) (y : Reg) : Statement (.seReg x y) := (wordXYN_and_nibble _ _ _ _).trans rfl

theorem ldByte (x : Reg) (nn : Byte) : Statement (.ldByte x nn) := (wordXNN_and_family _ _ _).trans rfl

theorem addByte (x : Reg) (nn : Byte) : Statement (.addByte x nn) := (wordXNN_and_family _ _ _).trans rfl

theorem ldReg (x : Reg) (y : Reg) : Statement (.ldReg x y) := (wordXYN_and_nibble _ _ _ _).trans rfl

theorem orReg (x : Reg) (y : Reg) : Statement (.orReg x y) := (wordXYN_and_nibble _ _ _ _).trans rfl

theorem andReg (x : Reg) (y : Reg) : Statement (.andReg x y) := (wordXYN_and_nibble _ _ _ _).trans rfl

theorem xorReg (x : Reg) (y : Reg) : Statement (.xorReg x y) := (wordXYN_and_nibble _ _ _ _).trans rfl

theorem addReg (x : Reg) (y : Reg) : Statement (.addReg x y) := (wordXYN_and_nibble _ _ _ _).trans rfl

theorem subReg (x : Reg) (y : Reg) : Statement (.subReg x y) := (wordXYN_and_nibble _ _ _ _).trans rfl

theorem shr (x : Reg) (y : Reg) : Statement (.shr x y) := (wordXYN_and_nibble _ _ _ _).trans rfl

theorem subn (x : Reg) (y : Reg) : Statement (.subn x y) := (wordXYN_and_nibble _ _ _ _).trans rfl

theorem shl (x : Reg) (y : Reg) : Statement (.shl x y) := (wordXYN_and_nibble _ _ _ _).trans rfl

theorem sneReg (x : Reg) (y : Reg) : Statement (.sneReg x y) := (wordXYN_and_nibble _ _ _ _).trans rfl

theorem ldI (nnn : Addr12) : Statement (.ldI nnn) := (wordNNN_and_family _ _).trans rfl

theorem jpV0 (nnn : Addr12) : Statement (.jpV0 nnn) := (wordNNN_and_family _ _).trans rfl

theorem rnd (x : Reg) (nn : Byte) : Statement (.rnd x nn) := (wordXNN_and_family _ _ _).trans rfl

theorem drw (x : Reg) (y : Reg) (n : Fin 16) : Statement (.drw x y n) := (wordXYN_and_family _ _ _ _).trans rfl

theorem skp (x : Reg) : Statement (.skp x) := (wordXNN_and_low _ _ _).trans rfl

theorem sknp (x : Reg) : Statement (.sknp x) := (wordXNN_and_low _ _ _).trans rfl

theorem ldVxDT (x : Reg) : Statement (.ldVxDT x) := (wordXNN_and_low _ _ _).trans rfl

theorem ldVxK (x : Reg) : Statement (.ldVxK x) := (wordXNN_and_low _ _ _).trans rfl

theorem ldDTVx (x : Reg) : Statement (.ldDTVx x) := (wordXNN_and_low _ _ _).trans rfl

theorem ldSTVx (x : Reg) : Statement (.ldSTVx x) := (wordXNN_and_low _ _ _).trans rfl

theorem addI (x : Reg) : Statement (.addI x) := (wordXNN_and_low _ _ _).trans rfl

theorem ldF (x : Reg) : Statement (.ldF x) := (wordXNN_and_low _ _ _).trans rfl

theorem ldB (x : Reg) : Statement (.ldB x) := (wordXNN_and_low _ _ _).trans rfl

theorem stRegs (x : Reg) : Statement (.stRegs x) := (wordXNN_and_low _ _ _).trans rfl

theorem ldRegs (x : Reg) : Statement (.ldRegs x) := (wordXNN_and_low _ _ _).trans rfl

end Laws.MatchesTable

end Sys2Proof
end

