-- ==== Sys2Proof/Laws/Registers.lean ====
section
/-! SUPPORT. The laws of the register file: a read after a write, the flag written last, runs of registers. -/

namespace Sys2Proof.Machine

/-- A register read after a register write. -/
@[simp] theorem State.reg_writeReg (s : State) (x y : Reg) (b : Byte) :
    (s.writeReg x b).reg y = if y = x then b else s.reg y := by
  simp only [State.reg, State.writeReg, Vector.getElem_set, Fin.ext_iff, eq_comm]

/-- Two states with the same register file read alike. -/
theorem State.reg_congr {s t : State} (h : t.V = s.V) (y : Reg) : t.reg y = s.reg y := by simp only [State.reg, h]

/-- After a result and its flag: VF is the flag, even where X = F (R217). -/
@[simp] theorem State.reg_writeWithFlag (s : State) (x y : Reg) (r : Byte) (t : Bool) :
    (s.writeWithFlag x r t).reg y = if y = regF then b2u t else if y = x then r else s.reg y := by
  simp only [State.writeWithFlag, State.reg_writeReg]

/-- `b2u` is 0 or 1. -/
theorem b2u_cases (t : Bool) : b2u t = 0#8 ∨ b2u t = 1#8 := by cases t <;> simp [b2u]

/-- A run of register loads: the bytes inside the run, the other registers as before (R255). -/
theorem getElem_loadRegsFrom (v : Vector Byte 16) (k : Nat) (bs : List Byte) (j : Nat) (hj : j < 16) :
    (loadRegsFrom v k bs)[j] = if k ≤ j ∧ j < k + bs.length then bs.getD (j - k) 0#8 else v[j] := by
  induction bs generalizing v k with
  | nil =>
    have : ¬ (k ≤ j ∧ j < k + 0) := by omega
    simp only [loadRegsFrom, List.length_nil, this, if_false]
  | cons b bs ih =>
    rw [loadRegsFrom, ih]
    by_cases hjk : j = k
    · subst hjk
      simp [hj]
    · by_cases hr : k + 1 ≤ j ∧ j < k + 1 + bs.length
      · have h2 : k ≤ j ∧ j < k + (b :: bs).length := by simp; omega
        rw [if_pos hr, if_pos h2, show j - k = (j - (k + 1)) + 1 by omega]
        simp
      · have h2 : ¬ (k ≤ j ∧ j < k + (b :: bs).length) := by simp; omega
        rw [if_neg hr, if_neg h2, Vector.getElem_setIfInBounds_ne hj (by omega)]

@[simp] theorem State.length_regsUpTo (s : State) (x : Reg) : (s.regsUpTo x).length = x.val + 1 := by
  simp [State.regsUpTo]

/-- Byte k of the dump is V[k] (R254). -/
theorem State.getElem_regsUpTo (s : State) (x : Reg) (k : Nat) (h : k < x.val + 1) :
    (s.regsUpTo x).getD k 0#8 = s.V[k]'(by omega) := by
  have hk : k < 16 := by omega
  simp [State.regsUpTo, List.getD, List.getElem?_take, h, hk]

end Sys2Proof.Machine
end

