-- ==== Sys2Proof/Tests/Slice0.lean ====
section
/-! SUPPORT. The model's own tests. Every expected value is from the spec: a rule's example, or a vector of
95_test_vectors.md, named in the comment (FD, DS, FL, AL, MI, KT, RS). Then the witnesses: for each statement with
hypotheses, states and operands that meet them. -/

namespace Sys2Proof.Tests

open Sys2Proof.Machine

/-! ### Well-formedness: the one check, on both words it refuses -/

theorem test_wf_refuses_sys_0E0 : (Instr.sys 0x0E0#12).wf = false := by decide
theorem test_wf_refuses_sys_0EE : (Instr.sys 0x0EE#12).wf = false := by decide
theorem test_wf_accepts_sys_0E1 : (Instr.sys 0x0E1#12).wf = true := by decide

/-! ### Decoding, word by word: the words are R108's patterns with fields filled in by hand -/

theorem test_decode_family0 : decode 0x00E0#16 = .ok .cls ∧ decode 0x00EE#16 = .ok .ret ∧
    decode 0x0123#16 = .ok (.sys 0x123#12) ∧ decode 0x0000#16 = .ok (.sys 0#12) := by decide
/-- FD12, FD13 -/
theorem test_decode_family0_whole_word : decode 0x01E0#16 = .ok (.sys 0x1E0#12) ∧
    decode 0x00E1#16 = .ok (.sys 0x0E1#12) := by decide
theorem test_decode_jp_call : decode 0x1234#16 = .ok (.jp 0x234#12) ∧ decode 0x2ABC#16 = .ok (.call 0xABC#12) := by decide
theorem test_decode_skips : decode 0x3A42#16 = .ok (.seByte 0xA 0x42#8) ∧ decode 0x4B01#16 = .ok (.sneByte 0xB 0x01#8) ∧
    decode 0x5120#16 = .ok (.seReg 1 2) ∧ decode 0x9EF0#16 = .ok (.sneReg 0xE 0xF) := by decide
theorem test_decode_immediates : decode 0x6AFF#16 = .ok (.ldByte 0xA 0xFF#8) ∧ decode 0x7203#16 = .ok (.addByte 2 0x03#8) ∧
    decode 0xC30F#16 = .ok (.rnd 3 0x0F#8) := by decide
theorem test_decode_alu_low : decode 0x8120#16 = .ok (.ldReg 1 2) ∧ decode 0x8121#16 = .ok (.orReg 1 2) ∧
    decode 0x8122#16 = .ok (.andReg 1 2) ∧ decode 0x8123#16 = .ok (.xorReg 1 2) ∧ decode 0x8124#16 = .ok (.addReg 1 2) := by
  decide
theorem test_decode_alu_high : decode 0x8125#16 = .ok (.subReg 1 2) ∧ decode 0x8126#16 = .ok (.shr 1 2) ∧
    decode 0x8127#16 = .ok (.subn 1 2) ∧ decode 0x812E#16 = .ok (.shl 1 2) := by decide
theorem test_decode_index : decode 0xA2F0#16 = .ok (.ldI 0x2F0#12) ∧ decode 0xB300#16 = .ok (.jpV0 0x300#12) ∧
    decode 0xD125#16 = .ok (.drw 1 2 5) := by decide
theorem test_decode_keys : decode 0xE19E#16 = .ok (.skp 1) ∧ decode 0xE1A1#16 = .ok (.sknp 1) ∧
    decode 0xF20A#16 = .ok (.ldVxK 2) := by decide
theorem test_decode_timers : decode 0xF307#16 = .ok (.ldVxDT 3) ∧ decode 0xF415#16 = .ok (.ldDTVx 4) ∧
    decode 0xF418#16 = .ok (.ldSTVx 4) := by decide
theorem test_decode_memory : decode 0xF51E#16 = .ok (.addI 5) ∧ decode 0xF229#16 = .ok (.ldF 2) ∧
    decode 0xF033#16 = .ok (.ldB 0) ∧ decode 0xF255#16 = .ok (.stRegs 2) ∧ decode 0xF265#16 = .ok (.ldRegs 2) := by decide
/-- FD5 to FD9 -/
theorem test_decode_unknown : decode 0x5121#16 = .error (.unknownOpcode 0x5121#16) ∧
    decode 0x9121#16 = .error (.unknownOpcode 0x9121#16) ∧ decode 0x8128#16 = .error (.unknownOpcode 0x8128#16) ∧
    decode 0xE19F#16 = .error (.unknownOpcode 0xE19F#16) ∧ decode 0xF1FF#16 = .error (.unknownOpcode 0xF1FF#16) := by decide
/-- R107: the last illegal sub-code of family 8. -/
theorem test_decode_unknown_8F : decode 0x812F#16 = .error (.unknownOpcode 0x812F#16) := by decide
/-- R78: high byte first; one byte is no word. -/
theorem test_decode_bytes : decodeBytes [0x12#8, 0x34#8, 0xFF#8] = .ok (.jp 0x234#12, [0xFF#8]) ∧
    decodeBytes [0x12#8] = .error .truncated := by decide
theorem test_decode_table_word : decodeTableWord 16 0xF265 = some (.ldRegs 2) ∧ decodeTableWord 16 0x8128 = none := by decide
/-- P7's program bytes -/
theorem test_encode_bytes : encodeBytes (.stRegs 1) = [0xF1#8, 0x55#8] ∧ encodeBytes (.ldI 0x400#12) = [0xA4#8, 0x00#8] := by
  decide

/-! ### One step each -/

/-- Read something off a next state. -/
def out {α : Type} (r : Result) (f : State → α) : Option α :=
  match r with
  | .next t => some (f t)
  | .fault _ => none
  | .refused _ => none

/-- A state with some registers and I set. -/
def withRegs (rs : List (Reg × Byte)) (i : Word := 0#16) : State :=
  rs.foldl (fun s r => s.writeReg r.1 r.2) (State.reset.setI i)

/-- The same with bytes in memory. -/
def withBytes (s : State) (a : Nat) (bs : List Byte) : State := s.setMem (Memory.writeBytes s.mem a bs)

/-- The same with inputs offered by the host. -/
def withInputs (s : State) (key : Option (Fin 16)) (event : Option (Fin 16)) (rand : Byte) (oob : Bool) : State :=
  s.setInputs ⟨match key with | some k => (Vector.replicate 16 false).set k.val true | none => Vector.replicate 16 false,
    event, rand, oob⟩

/-- What an error answers: kind, pc, word, addr. -/
def errOf (t : State) : Option ErrRecord :=
  match t.answer with
  | some (.err e) => some e
  | _ => none

/-- FD1 -/
theorem test_fetch_last_word : out (step (withBytes (State.reset.setPC 0xFFE#16) 0xFFE [0x12#8, 0x00#8]).requestFirst) (·.PC) = some 0x200#16 := by
  decide
/-- FD2 -/
theorem test_fetch_past_end : out (step (State.reset.setPC 0xFFF#16).requestFirst) (fun t => (errOf t, t.PC)) =
    some (some ⟨.outOfBounds, 0xFFF#16, none, some 0x1000⟩, 0xFFF#16) := by decide
/-- FD4 -/
theorem test_fetch_odd_pc : out (step (withBytes (State.reset.setPC 0x201#16) 0x201 [0x60#8, 0x07#8]).requestFirst) (fun t => (t.reg 0, t.PC)) =
    some (0x07#8, 0x203#16) := by decide
/-- FD5 -/
theorem test_step_unknown : out (step (State.reset.withFetchWord 16 0x5121)) errOf =
    some (some ⟨.unknownOpcode, 0x200#16, some 0x5121#16, none⟩) := by decide
/-- FD11: at reset with nothing loaded. -/
theorem test_step_sys_zero : out (step State.reset.requestFirst) (fun t => (errOf t, t.PC)) =
    some (some ⟨.unsupportedOperation, 0x200#16, some 0x0000#16, none⟩, 0x200#16) := by decide
/-- FD14 -/
theorem test_step_halted : out (step (State.reset.setStatus (.halted ⟨.stackUnderflow, 0x200#16, some 0x00EE#16, none⟩)).requestFirst)
    (fun t => (t.answer, t.PC)) =
    some (some (.refused ⟨.stackUnderflow, 0x200#16, some 0x00EE#16, none⟩), 0x200#16) := by decide

/-- R174's example -/
theorem test_cls : out (exec .cls (State.reset.setFb (fbToggle (fbToggle fbClear 0 0) 63 31)))
    (fun t => (fbGet t.fb 0 0, fbGet t.fb 63 31, t.PC)) = some (false, false, 0x202#16) := by decide
/-- DS2 -/
theorem test_drw_on : out (exec (.drw 0 1 1) (withBytes (withRegs [] 0x300#16) 0x300 [0x80#8])) (fun t => (fbGet t.fb 0 0, fbGet t.fb 1 0, t.reg 15)) =
    some (true, false, 0#8) := by decide
/-- DS11 -/
theorem test_drw_collision : out (exec (.drw 0 1 1) ((withBytes (withRegs [] 0x300#16) 0x300 [0xC0#8]).setFb (fbToggle fbClear 0 0)))
    (fun t => (fbGet t.fb 0 0, fbGet t.fb 1 0, t.reg 15)) = some (false, true, 1#8) := by decide
/-- DS6 -/
theorem test_drw_wraps_right : out (exec (.drw 0 1 1) (withBytes (withRegs [(0, 0x3C#8)] 0x300#16) 0x300 [0xFF#8]))
    (fun t => (fbGet t.fb 60 0, fbGet t.fb 63 0, fbGet t.fb 0 0, fbGet t.fb 3 0, fbGet t.fb 4 0)) =
    some (true, true, true, true, false) := by decide
/-- DS7 -/
theorem test_drw_wraps_down : out (exec (.drw 0 1 2) (withBytes (withRegs [(1, 0x1F#8)] 0x300#16) 0x300 [0x80#8, 0x80#8]))
    (fun t => (fbGet t.fb 0 31, fbGet t.fb 0 0)) = some (true, true) := by decide
/-- DS9 -/
theorem test_drw_out_of_bounds : out (exec (.drw 0 1 2) (withRegs [] 0xFFF#16)) errOf =
    some (some ⟨.outOfBounds, 0x200#16, some 0xD012#16, some 0x1000⟩) := by decide
/-- DS8 -/
theorem test_drw_zero_rows : out (exec (.drw 0 0 0) (withRegs [(15, 5#8)] 0xFFFF#16)) (fun t => (t.reg 15, t.answer)) =
    some (0#8, some .ok) := by decide
/-- DS10 -/
theorem test_drw_reads_vf_first : out (exec (.drw 15 0 1) (withBytes (withRegs [(15, 2#8)] 0x300#16) 0x300 [0xC0#8]))
    (fun t => (fbGet t.fb 2 0, fbGet t.fb 3 0, t.reg 15)) = some (true, true, 0#8) := by decide

/-- FL6 -/
theorem test_ret : out (exec .ret ((State.reset.setStack [0x202#16]).setPC 0x300#16)) (fun t => (t.PC, t.stack)) =
    some (0x202#16, []) := by decide
/-- FL7 -/
theorem test_ret_underflow : out (exec .ret State.reset) errOf =
    some (some ⟨.stackUnderflow, 0x200#16, some 0x00EE#16, none⟩) := by decide
/-- FD10 -/
theorem test_sys : out (exec (.sys 0x123#12) State.reset) errOf =
    some (some ⟨.unsupportedOperation, 0x200#16, some 0x0123#16, none⟩) := by decide
/-- FL1 -/
theorem test_jp : out (exec (.jp 0x234#12) State.reset) (·.PC) = some 0x234#16 := by decide
/-- FL3 -/
theorem test_call : out (exec (.call 0x300#12) State.reset) (fun t => (t.stack, t.PC)) = some ([0x202#16], 0x300#16) := by decide
/-- FL5 -/
theorem test_call_overflow : out (exec (.call 0x300#12) (State.reset.setStack (List.replicate 16 0x202#16))) errOf =
    some (some ⟨.stackOverflow, 0x200#16, some 0x2300#16, none⟩) := by decide
/-- FL8 -/
theorem test_se_byte : out (exec (.seByte 3 0x42#8) (withRegs [(3, 0x42#8)])) (·.PC) = some 0x204#16 ∧
    out (exec (.seByte 3 0x41#8) (withRegs [(3, 0x42#8)])) (·.PC) = some 0x202#16 := by decide
/-- FL9 -/
theorem test_sne_byte : out (exec (.sneByte 3 0x41#8) (withRegs [(3, 0x42#8)])) (·.PC) = some 0x204#16 ∧
    out (exec (.sneByte 3 0x42#8) (withRegs [(3, 0x42#8)])) (·.PC) = some 0x202#16 := by decide
/-- FL10, FL11 -/
theorem test_se_reg : out (exec (.seReg 1 2) (withRegs [(1, 7#8), (2, 7#8)])) (·.PC) = some 0x204#16 ∧
    out (exec (.seReg 1 2) (withRegs [(1, 7#8), (2, 8#8)])) (·.PC) = some 0x202#16 := by decide
/-- FL11, FL12 -/
theorem test_sne_reg : out (exec (.sneReg 1 2) (withRegs [(1, 7#8), (2, 8#8)])) (·.PC) = some 0x204#16 ∧
    out (exec (.sneReg 1 1) (withRegs [(1, 7#8)])) (·.PC) = some 0x202#16 := by decide
/-- FL14 -/
theorem test_jp_v0_no_mask : out (exec (.jpV0 0xFFF#12) (withRegs [(0, 0xFF#8)])) (·.PC) = some 0x10FE#16 := by decide

/-- AL1 -/
theorem test_ld_byte : out (exec (.ldByte 0xA 0xFF#8) State.reset) (fun t => (t.reg 0xA, t.PC)) = some (0xFF#8, 0x202#16) := by decide
/-- R221's example -/
theorem test_add_byte_no_flag : out (exec (.addByte 2 0x03#8) (withRegs [(2, 0xFE#8), (15, 7#8)])) (fun t => (t.reg 2, t.reg 15)) =
    some (0x01#8, 7#8) := by decide
/-- AL4 -/
theorem test_ld_reg : out (exec (.ldReg 0 1) (withRegs [(1, 0x33#8)])) (fun t => (t.reg 0, t.reg 1)) = some (0x33#8, 0x33#8) := by decide
/-- AL5 -/
theorem test_or_keeps_vf : out (exec (.orReg 0 1) (withRegs [(0, 0x0F#8), (1, 0xF0#8), (15, 9#8)])) (fun t => (t.reg 0, t.reg 15)) =
    some (0xFF#8, 9#8) := by decide
/-- AL6 -/
theorem test_and : out (exec (.andReg 0 1) (withRegs [(0, 0x3C#8), (1, 0x0F#8)])) (·.reg 0) = some 0x0C#8 := by decide
/-- AL7 -/
theorem test_xor : out (exec (.xorReg 0 1) (withRegs [(0, 0xFF#8), (1, 0x0F#8)])) (·.reg 0) = some 0xF0#8 := by decide
/-- S8 -/
theorem test_add_reg : out (exec (.addReg 0 1) (withRegs [(0, 250#8), (1, 10#8)])) (fun t => (t.reg 0, t.reg 15)) =
    some (4#8, 1#8) := by decide
/-- AL13 -/
theorem test_add_reg_into_vf : out (exec (.addReg 15 1) (withRegs [(15, 0x10#8), (1, 0xF5#8)])) (·.reg 15) = some 1#8 := by decide
/-- AL15 -/
theorem test_sub_borrow : out (exec (.subReg 0 1) (withRegs [(0, 0x05#8), (1, 0x10#8)])) (fun t => (t.reg 0, t.reg 15)) =
    some (0xF5#8, 0#8) := by decide
/-- AL16 -/
theorem test_sub_equal : out (exec (.subReg 0 1) (withRegs [(0, 7#8), (1, 7#8)])) (fun t => (t.reg 0, t.reg 15)) =
    some (0#8, 1#8) := by decide
/-- AL18, AL19 -/
theorem test_subn : out (exec (.subn 0 1) (withRegs [(0, 5#8), (1, 10#8)])) (fun t => (t.reg 0, t.reg 15)) = some (5#8, 1#8) ∧
    out (exec (.subn 0 1) (withRegs [(0, 10#8), (1, 5#8)])) (fun t => (t.reg 0, t.reg 15)) = some (0xFB#8, 0#8) := by decide
/-- AL23, AL24 -/
theorem test_shr_source : out (exec (.shr 0 1) (withRegs [(0, 4#8), (1, 5#8)])) (fun t => (t.reg 0, t.reg 15)) = some (2#8, 0#8) ∧
    out (exec (.shr 0 1) { withRegs [(0, 4#8), (1, 5#8)] with shiftSource := .vy }) (fun t => (t.reg 0, t.reg 15)) =
      some (2#8, 1#8) := by decide
/-- AL26 -/
theorem test_shr_vf : out (exec (.shr 15 0) (withRegs [(15, 2#8)])) (·.reg 15) = some 0#8 := by decide
/-- AL27, AL29 -/
theorem test_shl : out (exec (.shl 0 0) (withRegs [(0, 0x81#8)])) (fun t => (t.reg 0, t.reg 15)) = some (2#8, 1#8) ∧
    out (exec (.shl 0 0) (withRegs [(0, 0xFF#8)])) (fun t => (t.reg 0, t.reg 15)) = some (0xFE#8, 1#8) := by decide
/-- AL30 -/
theorem test_rnd : out (exec (.rnd 3 0x0F#8) (withInputs State.reset none none 0xB7#8 false)) (·.reg 3) = some 7#8 := by decide

/-- MI1 -/
theorem test_ld_i : out (exec (.ldI 0x2F0#12) State.reset) (·.I) = some 0x2F0#16 := by decide
/-- MI3, MI4 -/
theorem test_add_i : out (exec (.addI 0) (withRegs [(0, 1#8)] 0xFFFF#16)) (fun t => (t.I, t.reg 15)) = some (0#16, 0#8) ∧
    out (exec (.addI 0) (withRegs [(0, 1#8)] 0x0FFF#16)) (·.I) = some 0x1000#16 := by decide
/-- MI5, MI6 -/
theorem test_ld_f : out (exec (.ldF 2) { withRegs [(2, 0x0A#8)] with fontBase := 0x050#16 }) (·.I) = some 0x082#16 ∧
    out (exec (.ldF 2) { withRegs [(2, 0xFF#8)] with fontBase := 0x000#16 }) (·.I) = some 0x4FB#16 := by decide
/-- MI10 -/
theorem test_ld_b : out (exec (.ldB 0) (withRegs [(0, 123#8)] 0x300#16)) (fun t => Memory.readBytes t.mem 0x300 3) =
    some [1#8, 2#8, 3#8] := by decide
/-- MI11 -/
theorem test_ld_b_out_of_bounds : out (exec (.ldB 0) (withRegs [(0, 123#8)] 0xFFE#16)) (fun t => (errOf t, t.mem)) =
    some (some ⟨.outOfBounds, 0x200#16, some 0xF033#16, some 0x1000⟩, []) := by decide
/-- MI12 -/
theorem test_st_regs : out (exec (.stRegs 2) (withRegs [(0, 1#8), (1, 2#8), (2, 3#8), (3, 4#8)] 0x400#16))
    (fun t => (Memory.readBytes t.mem 0x400 4, t.I)) = some ([1#8, 2#8, 3#8, 0#8], 0x400#16) := by decide
/-- MI14 -/
theorem test_st_regs_out_of_bounds : out (exec (.stRegs 15) (withRegs [] 0xFF1#16)) errOf =
    some (some ⟨.outOfBounds, 0x200#16, some 0xFF55#16, some 0x1000⟩) := by decide
/-- MI15 -/
theorem test_ld_regs : out (exec (.ldRegs 2) (withBytes (withRegs [(3, 9#8)] 0x300#16) 0x300 [1#8, 2#8, 3#8, 4#8]))
    (fun t => (t.reg 0, t.reg 1, t.reg 2, t.reg 3)) = some (1#8, 2#8, 3#8, 9#8) := by decide
/-- MI17 -/
theorem test_ld_regs_out_of_bounds : out (exec (.ldRegs 1) (withRegs [(0, 6#8)] 0xFFF#16)) (fun t => (errOf t, t.reg 0)) =
    some (some ⟨.outOfBounds, 0x200#16, some 0xF165#16, some 0x1000⟩, 6#8) := by decide

/-- KT1, KT2 -/
theorem test_skp : out (exec (.skp 1) (withInputs (withRegs [(1, 5#8)]) (some 5) none 0#8 false)) (·.PC) = some 0x204#16 ∧
    out (exec (.skp 1) (withInputs (withRegs [(1, 5#8)]) none none 0#8 true)) (·.PC) = some 0x202#16 := by decide
/-- KT1, KT4 -/
theorem test_sknp : out (exec (.sknp 1) (withInputs (withRegs [(1, 5#8)]) (some 5) none 0#8 false)) (·.PC) = some 0x202#16 ∧
    out (exec (.sknp 1) (withInputs (withRegs [(1, 0x20#8)]) (some 5) none 0#8 false)) (·.PC) = some 0x204#16 := by decide
/-- KT9 -/
theorem test_ld_vx_dt : out (exec (.ldVxDT 3) (State.reset.setDT 0x3C#8)) (·.reg 3) = some 0x3C#8 := by decide
/-- KT5 -/
theorem test_ld_vx_k : out (exec (.ldVxK 2) (withInputs State.reset none (some 0xB) 0#8 false))
    (fun t => (t.reg 2, t.PC, t.inputs.keyEvent)) = some (0xB#8, 0x202#16, none) := by decide
/-- KT8 -/
theorem test_ld_vx_k_holds : out (exec (.ldVxK 0) (withInputs State.reset (some 3) none 0#8 false)) (fun t => (t.answer, t.PC)) =
    some (some .hold, 0x200#16) := by decide
/-- KT10 -/
theorem test_ld_dt : out (exec (.ldDTVx 4) (withRegs [(4, 0x10#8)])) (fun t => (t.DT, t.ST)) = some (0x10#8, 0#8) := by decide
/-- KT11 -/
theorem test_ld_st : out (exec (.ldSTVx 4) (withRegs [(4, 2#8)])) (fun t => (t.DT, t.ST)) = some (0#8, 2#8) := by decide

/-- KT12 -/
theorem test_tick : out (step (((State.reset.setDT 2#8).setST 0#8).setMoves [.tick])) (fun t => (t.DT, t.ST, t.PC)) =
    some (1#8, 0#8, 0x200#16) := by decide
/-- RS1 -/
theorem test_reset_leaves_halted : out (step ((withBytes ((State.reset.setStatus (.halted ⟨.stackUnderflow, 0x300#16, none, none⟩)).setPC 0x300#16)
    0x300 [7#8]).setMoves [.reset])) (fun t => (t.status, t.PC, t.mem)) = some (.running, 0x200#16, [(0x300, 7#8)]) := by decide
/-- RS4 -/
theorem test_load : out (step ((State.reset.setPC 0x300#16).setMoves [.load [0x60#8, 0x0A#8]])) (fun t => (t.mem, t.PC)) =
    some ([(0x200, 0x60#8), (0x201, 0x0A#8)], 0x300#16) := by decide
/-- A request of the host's plan samples the inputs it brings (R15; KT5). -/
theorem test_request_inputs : out (step ((State.reset.withFetchWord 16 0xF20A).setMoves
    [.request ⟨Vector.replicate 16 false, some 0xB, 0#8, false⟩])) (fun t => (t.reg 2, t.PC, t.moves)) =
    some (0xB#8, 0x202#16, []) := by decide
/-- Memory's canonical form: writing what an unlisted address reads as removes the cell. -/
theorem test_memory_canonical : Memory.write (Memory.write (Memory.write [] 5 1#8) 3 2#8) 5 0#8 = [(3, 2#8)] := by decide

/-! ### Witnesses of the statements' hypotheses -/

/-- A halted record. -/
def someErr : ErrRecord := ⟨.stackUnderflow, 0x200#16, some 0x00EE#16, none⟩

/-- StepRunsTheDecodedInstruction. -/
theorem witness_step_runs : (State.reset.withFetchWord 16 0x600A).requestNext ∧
    ((State.reset.withFetchWord 16 0x600A).setMoves [.request (Config.freeInputs 0)]).requestNext ∧
    (State.reset.withFetchWord 16 0x600A).status = .running ∧
    fetchWord (State.reset.withFetchWord 16 0x600A).mem (State.reset.withFetchWord 16 0x600A).PC.toNat = .ok 0x600A#16 ∧
    decode 0x600A#16 = .ok (.ldByte 0 0x0A#8) := ⟨⟨_, rfl⟩, ⟨_, rfl⟩, rfl, by decide, by decide⟩
/-- DecodeInvertsEncode and EncodeInvertsDecode. -/
theorem witness_round_trip : (Instr.sys 0xFFF#12).wf = true ∧ decode 0x0FFF#16 = .ok (.sys 0xFFF#12) := by decide
/-- FetchAndDecodeErrorsHalt: the lowest failing PC, the next one, and an unknown word. -/
theorem witness_fetch_errors : State.reset.requestFirst.requestNext ∧ State.reset.requestFirst.status = .running ∧
    fetchWord [] (0xFFF#16).toNat = .error 0x1000 ∧ fetchWord [] (0x1000#16).toNat = .error 0x1000 ∧
    fetchWord (State.reset.withFetchWord 16 0xF0FF).mem 0x200 = .ok 0xF0FF#16 ∧
    decode 0xF0FF#16 = .error (.unknownOpcode 0xF0FF#16) := ⟨⟨_, rfl⟩, rfl, by decide, by decide, by decide, by decide⟩
/-- HaltedMachineRefusesSteps, and both cases of OnlyResetLeavesHalted. -/
theorem witness_halted : (State.reset.setStatus (.halted someErr)).requestFirst.requestNext ∧
    ((State.reset.setStatus (.halted someErr)).setMoves [.reset]).resetNext ∧
    (∃ t, step (State.reset.setStatus (.halted someErr)).requestFirst = .next t) ∧
    ∃ t, step ((State.reset.setStatus (.halted someErr)).setMoves [.reset]) = .next t :=
  ⟨⟨_, rfl⟩, rfl, ⟨_, rfl⟩, ⟨_, rfl⟩⟩
/-- ExecuteErrorsArePrecise. -/
theorem witness_execute_error : ∃ t, exec .ret State.reset = .next t ∧ t.answer = some (.err someErr) := ⟨_, rfl, rfl⟩
/-- HoldsExactlyWithoutAKeyEvent, ExecuteErrorsExactlyWhen. -/
theorem witness_hold : ∃ t, exec (.ldVxK 0) State.reset = .next t ∧ t.answer = some .hold := ⟨_, rfl, rfl⟩
/-- ErrorCase at the boundary of each memory range (R301). -/
theorem witness_error_cases : ErrorCase (withRegs [] 0xFFF#16) .outOfBounds (.drw 0 1 2) ∧
    ¬ ErrorCase (withRegs [] 0xFFF#16) .outOfBounds (.drw 0 1 1) ∧ ErrorCase (withRegs [] 0xFFE#16) .outOfBounds (.ldB 0) ∧
    ¬ ErrorCase (withRegs [] 0xFFD#16) .outOfBounds (.ldB 0) ∧ ErrorCase (withRegs [] 0xFF1#16) .outOfBounds (.stRegs 15) ∧
    ¬ ErrorCase (withRegs [] 0xFF0#16) .outOfBounds (.stRegs 15) := by
  refine ⟨⟨by decide, by decide, rfl⟩, fun h => absurd h.2.1 (by decide), ⟨by decide, rfl⟩, fun h => absurd h.1 (by decide),
    ⟨by decide, rfl⟩, fun h => absurd h.1 (by decide)⟩
/-- OnlyErrorsHalt: one move of each kind from Running. -/
theorem witness_running_moves : (∃ t, step (State.reset.withFetchWord 16 0x00E0) = .next t ∧ t.status = .running) ∧
    ∃ t, step (State.reset.withFetchWord 16 0x00EE) = .next t ∧ t.status = .halted someErr := ⟨⟨_, rfl, by decide⟩, ⟨_, rfl, by decide⟩⟩
/-- A state with a full stack whose next step loads a register. -/
def fullStack : State := (State.reset.withFetchWord 16 0x6001).setStack (List.replicate 16 0x1000#16)

theorem fullStack_running : fullStack.status = .running := rfl

/-- StepKeepsInv and StepKeepsPcBounded, at the boundaries of the stack's depth and of its entries. -/
theorem witness_inv : fullStack.Inv ∧ fullStack.PcBounded ∧ ∃ t, step fullStack = .next t :=
  ⟨⟨by decide, by decide, fun e h => by rw [fullStack_running] at h; cases h⟩,
   ⟨by decide, fun a h => (List.eq_of_mem_replicate (n := 16) h) ▸ by decide⟩, ⟨_, rfl⟩⟩
/-- StepKeepsInv's record clause: a halted state that meets it. -/
theorem witness_inv_record : State.Inv (State.reset.setStatus (.halted someErr)) :=
  ⟨by decide, by decide, fun e h => by cases h; exact ⟨rfl, by decide, by simp [someErr], by simp [someErr]⟩⟩
/-- CanonicalMemoriesThatReadAlikeAreEqual. -/
theorem witness_canonical : Memory.wf [(0x000, 1#8), (0xFFF, 2#8)] = true ∧ Memory.wf [(0x1000, 1#8)] = false ∧
    Memory.wf [(0x10, 0#8)] = false ∧ Memory.wf [(0x11, 1#8), (0x10, 1#8)] = false := by decide
/-- OnlyDestinationRegistersChange, SpecialStateChangesOnlyByItsInstructions, NoInstructionReadsST. -/
theorem witness_frame : (∃ t, exec (.addReg 1 2) State.reset = .next t) ∧ ¬ isDest 3 (.addReg 1 2) ∧ ¬ isDest 3 (.ldRegs 2) ∧
    isDest 2 (.ldRegs 2) := ⟨⟨_, rfl⟩, by simp [isDest, regF], by simp [isDest], by simp [isDest]⟩
/-- OnlyStoredBytesChange: the addresses next to the stored bytes. -/
theorem witness_stored_bytes : (withRegs [] 0x300#16).indexAddr = 0x300 ∧ (∃ t, exec (.stRegs 2) (withRegs [] 0x300#16) = .next t) ∧
    (0x2FF < (withRegs [] 0x300#16).indexAddr) ∧ (withRegs [] 0x300#16).indexAddr + ((2 : Reg).val + 1) ≤ 0x303 :=
  ⟨by decide, ⟨_, rfl⟩, by decide, by decide⟩
/-- InputsMatterToFourInstructionsOnly. -/
theorem witness_inputs : (∃ t, exec .cls State.reset = .next t) ∧ (∀ x nn, Instr.cls ≠ .rnd x nn) ∧ (∀ x, Instr.cls ≠ .skp x) ∧
    (∀ x, Instr.cls ≠ .sknp x) ∧ ∀ x, Instr.cls ≠ .ldVxK x := ⟨⟨_, rfl⟩, by simp, by simp, by simp, by simp⟩
/-- FbDrawXorsTheSprite: the longest sprite, hitting the pixel its last bit wraps to. -/
theorem witness_sprite : (List.replicate 15 0x01#8).length ≤ 15 ∧ SpriteHit 0x3C#8 0x1F#8 (List.replicate 15 0x01#8) 3 13 :=
  ⟨by decide, 14, by decide, 7, by decide, by decide, by decide, by decide⟩
/-- DrwDrawsTheSpriteAtI: each clause at its boundary. -/
theorem witness_drw : ((0 : Fin 16).val = 0) ∧ (withRegs [] 0xFFF#16).I.toNat + (1 : Fin 16).val ≤ 0x1000 ∧
    (2 : Fin 16).val ≠ 0 ∧ 0x1000 < (withRegs [] 0xFFF#16).I.toNat + (2 : Fin 16).val := by decide
/-- RetPopsPc, CallPushesTheReturnAddress, RetAfterCallReturnsPastTheCall. -/
theorem witness_stack : (State.reset.setStack [0x202#16]).stack = 0x202#16 :: [] ∧ State.reset.stack = [] ∧
    (State.reset.setStack (List.replicate 15 0x202#16)).stack.length < 16 ∧
    16 ≤ (State.reset.setStack (List.replicate 16 0x202#16)).stack.length := by decide
/-- SysHaltsUnsupported. -/
theorem witness_sys : (0x0E1#12 : Addr12) ≠ 0x0E0#12 ∧ (0x0E1#12 : Addr12) ≠ 0x0EE#12 := by decide
/-- ShiftsMoveTheBitOutIntoVF and KeySkipsReadTheKeyState name a value; both shift sources, and both kinds of key index. -/
theorem witness_sources : 4 = (if (withRegs [(0, 4#8), (1, 5#8)]).shiftSource = .vx then (withRegs [(0, 4#8), (1, 5#8)]).V[0]
      else (withRegs [(0, 4#8), (1, 5#8)]).V[1]).toNat ∧ ShiftSource.vy ≠ .vx ∧
    (withRegs [(1, 15#8)]).V[1].toNat < 16 ∧ ¬ (withRegs [(1, 16#8)]).V[1].toNat < 16 := by decide
/-- LdBStoresTheDigits, StRegsDumpsTheRegisters, LdRegsLoadsTheRegisters, DumpThenLoadRestoresTheRegisters: the highest I that
works and the lowest that does not. -/
theorem witness_ranges : (0xFFD#16).toNat + 2 ≤ 0xFFF ∧ 0xFFF < (0xFFE#16).toNat + 2 ∧ (0xFF0#16).toNat + (15 : Reg).val ≤ 0xFFF ∧
    0xFFF < (0xFF1#16).toNat + (15 : Reg).val := by decide
/-- StoredRegistersAreFetchedAsWords: the last word of the longest dump. -/
theorem witness_stored_words : (0xFF0#16).toNat + (15 : Reg).val ≤ 0xFFF ∧ (15 : Reg).val = (14 : Reg).val + 1 ∧ (15 : Reg) ≤ 15 := by
  decide
/-- LdVxKWaitsForAKey. -/
theorem witness_key_event : (withInputs State.reset none (some 15) 0#8 false).inputs.keyEvent = some 15 ∧
    State.reset.inputs.keyEvent = none := by decide
/-- The host's moves; the longest program that loads and the shortest that does not. -/
theorem witness_moves : (State.reset.setMoves [.reset]).nextMove = .reset ∧ (State.reset.setMoves [.tick]).nextMove = .tick ∧
    (State.reset.setMoves [.load [1#8]]).nextMove = .load [1#8] ∧
    (List.replicate 3584 (0#8 : Byte)).length ≤ 3584 ∧ 3584 < (List.replicate 3585 (0#8 : Byte)).length :=
  ⟨rfl, rfl, rfl, List.length_replicate.le, by rw [List.length_replicate]; decide⟩
/-- AnyNumberOfTicksFallsBetweenTwoSteps, with more ticks than the value set, and the host free afterwards. -/
theorem witness_ticks : ∀ s, s = ((withBytes (withRegs [(0, 1#8)]) 0x200 [0xF0#8, 0x15#8, 0xF0#8, 0x07#8]).setMoves
      [.request (Config.freeInputs 0), .tick, .tick, .request (Config.freeInputs 1)]) →
    s.status = .running ∧ fetchWord s.mem s.PC.toNat = .ok (wordXNN 0xF#4 0 0x15#8) ∧
    fetchWord s.mem (s.PC.toNat + 2) = .ok (wordXNN 0xF#4 0 0x07#8) ∧ (∃ inp, s.hostMove 0 = .request inp) ∧
    (∀ j, j < 2 → s.hostMove (j + 1) = .tick) ∧ (∃ inp, s.hostMove 3 = .request inp) ∧ s.hostMove 4 = Config.freeMoves 0 := by
  rintro s rfl
  exact ⟨rfl, by decide, by decide, ⟨_, rfl⟩, fun j h => match j, h with | 0, _ => rfl | 1, _ => rfl, ⟨_, rfl⟩, rfl⟩
/-- NormalEndLastsForever (FL2). -/
theorem witness_normal_end : (State.reset.withFetchWord 16 0x1200).normalEnd ∧
    ∀ j, j < 1 → ∃ inp, (State.reset.withFetchWord 16 0x1200).hostMove j = .request inp :=
  ⟨⟨rfl, 0x200#12, by decide, by decide⟩, fun j h => match j, h with | 0, _ => ⟨_, rfl⟩⟩

end Sys2Proof.Tests
end

section
/-! Proofs about the memory's word read (20_memory.md). -/

namespace Sys2Proof.Machine

/-- A word as a number: 256 times its high byte plus its low byte (R73). -/
theorem wordOfBytes_eq_ofNat (hi lo : Byte) : wordOfBytes hi lo = BitVec.ofNat 16 (hi.toNat * 256 + lo.toNat) := by
  rw [← wordOfBytes_toNat, BitVec.ofNat_toNat, BitVec.setWidth_eq]

/-- The fetch beside `fetchWord_in_range`: it reports the lowest address of the word that lies outside memory (R73, R80). -/
theorem fetchWord_out_of_range (m : Memory) (a : Nat) (h : 0x1000 < a + 2) :
    fetchWord m a = .error (max a 0x1000) := by
  have hbad : firstOutOfRange a 2 = some (max a 0x1000) := by rw [firstOutOfRange_eq, if_neg (by omega)]
  simp [fetchWord, hbad]

/-- Settles O6: the word's two addresses are both in range, or the lowest bad one is `a` or, at `a = 0xFFF`, `a + 1`. -/
theorem wordReadIsBigEndianAndChecked : Obligations.WordReadIsBigEndianAndChecked := by
  unfold Obligations.WordReadIsBigEndianAndChecked
  intro m a
  by_cases ha : 0xFFF < a
  · rw [if_pos ha, fetchWord_out_of_range m a (by omega), Nat.max_eq_left (by omega)]
  · rw [if_neg ha]
    by_cases ha1 : 0xFFF < a + 1
    · have hlast : max a 0x1000 = a + 1 := by omega
      rw [if_pos ha1, fetchWord_out_of_range m a (by omega), hlast]
    · rw [if_neg ha1, fetchWord_in_range m a (by omega), wordOfBytes_eq_ofNat]

end Sys2Proof.Machine
end

section
/-! Proofs about the framebuffer and the display instructions (41_display.md). -/

namespace Sys2Proof.Machine

/-- `CLS` clears the framebuffer and moves past its word (R174). -/
theorem exec_cls (s : State) : exec .cls s = complete (s.advance.setFb fbClear) := rfl

/-- Settles O25: the framebuffer after `00E0` is the cleared one. -/
theorem clsTurnsEveryPixelOff : Obligations.ClsTurnsEveryPixelOff := by
  unfold Obligations.ClsTurnsEveryPixelOff
  refine ⟨by decide, fun s => ⟨fbClear, fbGet_fbClear, ?_⟩⟩
  rw [exec_cls]; rfl

/-- One part of a draw takes `acc` to `acc'`: it inverts exactly the pixels of `hit`, and adds to the collision bit whether one
of them was on. Every part of `FbDraw` is of this form (`fbTouch`, a row, the sprite). -/
structure DrawsPixels (hit : Fin 64 → Fin 32 → Prop) (acc acc' : Framebuffer × Bool) : Prop where
  pixel : ∀ px py, fbGet acc'.1 px py = true ↔ Xor (fbGet acc.1 px py = true) (hit px py)
  collision : acc'.2 = true ↔ acc.2 = true ∨ ∃ px py, fbGet acc.1 px py = true ∧ hit px py

namespace DrawsPixels

variable {hit hit' : Fin 64 → Fin 32 → Prop} {a b c : Framebuffer × Bool}

theorem congr (h : DrawsPixels hit a b) (heq : ∀ px py, hit px py ↔ hit' px py) : DrawsPixels hit' a b := by
  obtain rfl : hit = hit' := by funext px py; exact propext (heq px py)
  exact h

/-- Drawing no pixel. -/
theorem none_hit (a : Framebuffer × Bool) : DrawsPixels (fun _ _ => False) a a := by
  constructor <;> simp [xor_def]

/-- Two parts that share no pixel draw the pixels of both. Without the premise a pixel hit twice would be inverted twice, and
the second part would count a collision with the first. -/
theorem trans (hab : DrawsPixels hit a b) (hbc : DrawsPixels hit' b c) (hdisj : ∀ px py, hit px py → ¬ hit' px py) :
    DrawsPixels (fun px py => hit px py ∨ hit' px py) a c where
  pixel px py := by
    rw [hbc.pixel, hab.pixel]
    have := hdisj px py
    simp only [xor_def]; tauto
  collision := by
    have hsame : ∀ px py, fbGet b.1 px py = true ∧ hit' px py ↔ fbGet a.1 px py = true ∧ hit' px py := by
      intro px py
      rw [hab.pixel]
      have := hdisj px py
      simp only [xor_def]; tauto
    simp only [hbc.collision, hab.collision, hsame, or_assoc, and_or_left, exists_or]

end DrawsPixels

/-- Touching a pixel draws that pixel. -/
theorem fbTouch_draws (x : Fin 64) (y : Fin 32) (acc : Framebuffer × Bool) :
    DrawsPixels (fun px py => px = x ∧ py = y) acc (fbTouch x y acc) where
  pixel px py := by
    rw [(fbTouch_spec x px y py acc).1]
    by_cases h : px = x ∧ py = y <;> simp [h, xor_def]
  collision := by simp [(fbTouch_spec x x y y acc).2]

/-- One of the `k` bits of the row byte from bit `b` on is 1 and lies on the pixel (px, py) (R172). -/
def BitsHit (x y : Nat) (row : Byte) (b k : Nat) (px : Fin 64) (py : Fin 32) : Prop :=
  ∃ j, b ≤ j ∧ j < b + k ∧ px = fbCol (x + j) ∧ py = fbRow y ∧ row.getLsbD (7 - j) = true

/-- The first bit of the range, or one of the others. -/
theorem bitsHit_succ (x y : Nat) (row : Byte) (b k : Nat) (px : Fin 64) (py : Fin 32) :
    BitsHit x y row b (k + 1) px py ↔
      (row.getLsbD (7 - b) = true ∧ px = fbCol (x + b) ∧ py = fbRow y) ∨ BitsHit x y row (b + 1) k px py := by
  constructor
  · rintro ⟨j, hbj, hj, hpx, hpy, hbit⟩
    obtain rfl | hlt := hbj.eq_or_lt
    · exact .inl ⟨hbit, hpx, hpy⟩
    · exact .inr ⟨j, hlt, by omega, hpx, hpy, hbit⟩
  · rintro (⟨hbit, hpx, hpy⟩ | ⟨j, hbj, hj, hrest⟩)
    · exact ⟨b, le_rfl, by omega, hpx, hpy, hbit⟩
    · exact ⟨j, by omega, by omega, hrest⟩

/-- A bit's column is not met again by the later bits of a range no wider than the screen. -/
theorem not_bitsHit_fbCol (x y : Nat) (row : Byte) (b k : Nat) (hk : k < 64) (py : Fin 32) :
    ¬ BitsHit x y row (b + 1) k (fbCol (x + b)) py := by
  rintro ⟨j, hbj, hj, hpx, -⟩
  have hcol : (x + b) % 64 = (x + j) % 64 := congrArg Fin.val hpx
  omega

/-- The inner loop of `FbDraw` draws the 1 bits of its range. -/
theorem fbDrawBits_draws (x y : Nat) (row : Byte) (b k : Nat) (hk : k ≤ 64) (acc : Framebuffer × Bool) :
    DrawsPixels (BitsHit x y row b k) acc (fbDrawBits x y row b k acc) := by
  induction k generalizing b acc with
  | zero => exact (DrawsPixels.none_hit acc).congr fun px py => ⟨False.elim, fun ⟨j, hbj, hj, _⟩ => by omega⟩
  | succ k ih =>
    have hrest := ih (b + 1) (by omega)
    rw [fbDrawBits]
    by_cases hbit : row.getLsbD (7 - b) = true
    · rw [if_pos hbit]
      refine ((fbTouch_draws _ _ acc).trans (hrest _) ?_).congr fun px py => by simp [bitsHit_succ, hbit]
      rintro _ py ⟨rfl, -⟩
      exact not_bitsHit_fbCol x y row b k (by omega) py
    · rw [if_neg hbit]
      exact (hrest acc).congr fun px py => by simp [bitsHit_succ, hbit]

/-- The sprite whose upper left corner is at column x and row y, before wrapping, has a 1 bit on the pixel (px, py) (R172). -/
def RowsHit (x y : Nat) (rows : List Byte) (px : Fin 64) (py : Fin 32) : Prop :=
  ∃ r, ∃ h : r < rows.length, BitsHit x (y + r) rows[r] 0 8 px py

/-- The first row of the sprite, or one of the others. -/
theorem rowsHit_cons (x y : Nat) (row : Byte) (rows : List Byte) (px : Fin 64) (py : Fin 32) :
    RowsHit x y (row :: rows) px py ↔ BitsHit x y row 0 8 px py ∨ RowsHit x (y + 1) rows px py := by
  constructor
  · rintro ⟨_ | r, hr, hhit⟩
    · exact .inl hhit
    · exact .inr ⟨r, Nat.lt_of_succ_lt_succ hr, by rwa [Nat.add_assoc, Nat.add_comm 1 r]⟩
  · rintro (hhit | ⟨r, hr, hhit⟩)
    · exact ⟨0, Nat.succ_pos _, hhit⟩
    · exact ⟨r + 1, Nat.succ_lt_succ hr, by rwa [Nat.add_assoc, Nat.add_comm 1 r] at hhit⟩

/-- A row's screen row is not met again by the later rows of a sprite no higher than the screen. -/
theorem not_rowsHit_fbRow (x y : Nat) (rows : List Byte) (hlen : rows.length < 32) (px : Fin 64) :
    ¬ RowsHit x (y + 1) rows px (fbRow y) := by
  rintro ⟨r, hr, j, -, -, -, hpy, -⟩
  have hrow : y % 32 = (y + 1 + r) % 32 := congrArg Fin.val hpy
  omega

/-- The outer loop of `FbDraw` draws the 1 bits of its rows. -/
theorem fbDrawRows_draws (x y : Nat) (rows : List Byte) (hlen : rows.length ≤ 32) (acc : Framebuffer × Bool) :
    DrawsPixels (RowsHit x y rows) acc (fbDrawRows x y rows acc) := by
  induction rows generalizing y acc with
  | nil => exact (DrawsPixels.none_hit acc).congr fun px py => ⟨False.elim, fun ⟨r, hr, _⟩ => absurd hr (Nat.not_lt_zero r)⟩
  | cons row rows ih =>
    rw [List.length_cons] at hlen
    have hfirst := fbDrawBits_draws x y row 0 8 (by decide) acc
    refine (hfirst.trans (ih (y + 1) (by omega) _) ?_).congr fun px py => (rowsHit_cons x y row rows px py).symm
    rintro px _ ⟨j, -, -, -, rfl, -⟩
    exact not_rowsHit_fbRow x y rows (by omega) px

/-- The specification's `SpriteHit` is the sprite drawn by the outer loop. -/
theorem rowsHit_iff_spriteHit (x y : Byte) (rows : List Byte) (px : Fin 64) (py : Fin 32) :
    RowsHit x.toNat y.toNat rows px py ↔ SpriteHit x y rows px py := by
  simp [RowsHit, BitsHit, SpriteHit, Fin.ext_iff]

/-- Settles O26: no two bits of a sprite of at most 32 rows share a pixel, so the loops invert each hit pixel once, and each
is still as it was before the draw when its collision is noted. -/
theorem fbDrawXorsTheSprite : Obligations.FbDrawXorsTheSprite := by
  unfold Obligations.FbDrawXorsTheSprite
  intro f x y rows hlen
  have hdraw : DrawsPixels (SpriteHit x y rows) (f, false) (fbDraw f x y rows) :=
    (fbDrawRows_draws x.toNat y.toNat rows (by omega) (f, false)).congr (rowsHit_iff_spriteHit x y rows)
  exact ⟨hdraw.pixel, by simpa using hdraw.collision⟩

end Sys2Proof.Machine
end

section
/-! Proofs about the jump and the conditional skips (42_flow.md). -/

namespace Sys2Proof.Machine

/-! The decoder on the words of the jump and the skips: the families 1, 3 and 4 read their fields, and 5 and 9 ask for N = 0. -/

theorem decode_jp (nnn : Addr12) : decode (wordNNN 0x1#4 nnn) = .ok (.jp nnn) := by simp [decode]

theorem decode_seByte (x : Reg) (nn : Byte) : decode (wordXNN 0x3#4 x nn) = .ok (.seByte x nn) := by simp [decode]

theorem decode_sneByte (x : Reg) (nn : Byte) : decode (wordXNN 0x4#4 x nn) = .ok (.sneByte x nn) := by simp [decode]

theorem decode_seReg (x y : Reg) : decode (wordXYN 0x5#4 x y 0) = .ok (.seReg x y) := by simp [decode]

theorem decode_sneReg (x y : Reg) : decode (wordXYN 0x9#4 x y 0) = .ok (.sneReg x y) := by simp [decode]

/-- A jump's target is `NNN` as a number. -/
theorem addrOperand_eq_ofNat (nnn : Addr12) : addrOperand nnn = BitVec.ofNat 16 nnn.toNat :=
  (BitVec.ofNat_toNat 16 nnn).symm

/-- `JP` sets PC to its operand (R192). -/
theorem exec_jp (nnn : Addr12) (s : State) : exec (.jp nnn) s = complete (s.setPC (addrOperand nnn)) := rfl

/-- Settles O30: 1NNN decodes to JP, whose target is the zero-extended NNN. -/
theorem jpSetsPc : Obligations.JpSetsPc := by
  unfold Obligations.JpSetsPc
  intro nnn s
  refine ⟨decode_jp nnn, ?_⟩
  rw [exec_jp, addrOperand_eq_ofNat]; rfl

/-- A skip that completes changes PC and the recorded answer only: PC0 + 4 when it is taken, PC0 + 2 when not (R199). -/
theorem complete_advance_skipIf (s : State) (c : Bool) :
    complete (s.advance.skipIf c) =
      .next { s with PC := if c = true then s.PC + 4#16 else s.PC + 2#16, answer := some .ok } := by
  cases c
  · rfl
  · have htwice : s.PC + 2#16 + 2#16 = s.PC + 4#16 := BitVec.add_assoc ..
    exact congrArg (fun pc => Host.Outcome.next { s with PC := pc, answer := some .ok }) htwice

/-- `SE Vx, byte` skips when V[X] is NN (R194). -/
theorem exec_seByte (x : Reg) (nn : Byte) (s : State) :
    exec (.seByte x nn) s = complete (s.advance.skipIf (s.V[x.val] == nn)) := rfl

/-- `SNE Vx, byte` skips when V[X] is not NN (R195). -/
theorem exec_sneByte (x : Reg) (nn : Byte) (s : State) :
    exec (.sneByte x nn) s = complete (s.advance.skipIf (s.V[x.val] != nn)) := rfl

/-- `SE Vx, Vy` skips when V[X] is V[Y] (R196). -/
theorem exec_seReg (x y : Reg) (s : State) :
    exec (.seReg x y) s = complete (s.advance.skipIf (s.V[x.val] == s.V[y.val])) := rfl

/-- `SNE Vx, Vy` skips when V[X] is not V[Y] (R197). -/
theorem exec_sneReg (x y : Reg) (s : State) :
    exec (.sneReg x y) s = complete (s.advance.skipIf (s.V[x.val] != s.V[y.val])) := rfl

/-- The next state of a skip that is taken when two bytes are equal (R199). -/
theorem complete_skipIf_beq (s : State) (a b : Byte) :
    complete (s.advance.skipIf (a == b)) =
      .next { s with PC := if a = b then s.PC + 4#16 else s.PC + 2#16, answer := some .ok } := by
  simp only [complete_advance_skipIf, beq_iff_eq]

/-- The next state of a skip that is taken when two bytes differ (R199). -/
theorem complete_skipIf_bne (s : State) (a b : Byte) :
    complete (s.advance.skipIf (a != b)) =
      .next { s with PC := if a = b then s.PC + 2#16 else s.PC + 4#16, answer := some .ok } := by
  simp only [complete_advance_skipIf, bne_iff_ne, ne_eq, ite_not]

/-- Settles O33: 3XNN and 4XNN compare V[X] with NN. -/
theorem skipsOnAnImmediate : Obligations.SkipsOnAnImmediate := by
  unfold Obligations.SkipsOnAnImmediate
  intro x nn s
  refine ⟨decode_seByte x nn, decode_sneByte x nn, ?taken_on_equal, ?taken_on_unequal⟩
  case taken_on_equal => rw [exec_seByte, complete_skipIf_beq]
  case taken_on_unequal => rw [exec_sneByte, complete_skipIf_bne]

/-- Settles O34: 5XY0 and 9XY0 compare V[X] with V[Y], X = Y included. -/
theorem skipsOnTwoRegisters : Obligations.SkipsOnTwoRegisters := by
  unfold Obligations.SkipsOnTwoRegisters
  intro x y s
  refine ⟨decode_seReg x y, decode_sneReg x y, ?taken_on_equal, ?taken_on_unequal⟩
  case taken_on_equal => rw [exec_seReg, complete_skipIf_beq]
  case taken_on_unequal => rw [exec_sneReg, complete_skipIf_bne]

end Sys2Proof.Machine
end

section
/-! Proofs about the loads of a register (43_alu.md). -/

namespace Sys2Proof.Machine

/-! The decoder on the words of the two loads: family 6 reads its fields, and family 8 selects the copy by N = 0. -/

theorem decode_ldByte (x : Reg) (nn : Byte) : decode (wordXNN 0x6#4 x nn) = .ok (.ldByte x nn) := by simp [decode]

theorem decode_ldReg (x y : Reg) : decode (wordXYN 0x8#4 x y 0) = .ok (.ldReg x y) := by simp [decode, decodeFamily8]

/-- A register write that completes changes `V[X]`, PC, which moves past the word, and the recorded answer only. -/
theorem complete_advance_writeReg (s : State) (x : Reg) (b : Byte) :
    complete (s.advance.writeReg x b) =
      .next { s with PC := s.PC + 2#16, V := s.V.set x.val b, answer := some .ok } := rfl

/-- `LD Vx, byte` writes its immediate (R220). -/
theorem exec_ldByte (x : Reg) (nn : Byte) (s : State) :
    exec (.ldByte x nn) s = complete (s.advance.writeReg x nn) := rfl

/-- `LD Vx, Vy` writes the byte `V[Y]` holds before the step (R222). -/
theorem exec_ldReg (x y : Reg) (s : State) :
    exec (.ldReg x y) s = complete (s.advance.writeReg x s.V[y.val]) := rfl

/-- Settles O36: 6XNN decodes to LD, whose only write to the registers is NN to V[X]. -/
theorem ldByteLoadsTheImmediate : Obligations.LdByteLoadsTheImmediate := by
  unfold Obligations.LdByteLoadsTheImmediate
  intro x nn s
  refine ⟨decode_ldByte x nn, ?_⟩
  rw [exec_ldByte, complete_advance_writeReg]

/-- Settles O38: 8XY0 decodes to LD, whose only write to the registers is V[Y] to V[X], X = Y included. -/
theorem ldRegCopies : Obligations.LdRegCopies := by
  unfold Obligations.LdRegCopies
  intro x y s
  refine ⟨decode_ldReg x y, ?_⟩
  rw [exec_ldReg, complete_advance_writeReg]

end Sys2Proof.Machine
end

section
/-! Proofs about the index register (44_index_memory.md). -/

namespace Sys2Proof.Machine

/-- Family A reads its address. -/
theorem decode_ldI (nnn : Addr12) : decode (wordNNN 0xA#4 nnn) = .ok (.ldI nnn) := by simp [decode]

/-- A write of I that completes changes I, PC, which moves past the word, and the recorded answer only. -/
theorem complete_advance_setI (s : State) (a : Word) :
    complete (s.advance.setI a) = .next { s with PC := s.PC + 2#16, I := a, answer := some .ok } := rfl

/-- `LD I, addr` writes its operand (R250). -/
theorem exec_ldI (nnn : Addr12) (s : State) : exec (.ldI nnn) s = complete (s.advance.setI (addrOperand nnn)) := rfl

/-- Settles O44: ANNN decodes to LD I, whose only write besides PC is the zero-extended NNN to I. -/
theorem ldILoadsTheAddress : Obligations.LdILoadsTheAddress := by
  unfold Obligations.LdILoadsTheAddress
  intro nnn s
  refine ⟨decode_ldI nnn, ?_⟩
  rw [exec_ldI, complete_advance_setI, addrOperand_eq_ofNat]

end Sys2Proof.Machine
end

section
/-! Proofs about the timer instructions (45_keys_timers.md). -/

namespace Sys2Proof.Machine

/-! The decoder on the words of the timers: family F selects each instruction by its low byte. -/

theorem decode_ldVxDT (x : Reg) : decode (wordXNN 0xF#4 x 0x07#8) = .ok (.ldVxDT x) := by simp [decode, decodeFamilyF]

theorem decode_ldDTVx (x : Reg) : decode (wordXNN 0xF#4 x 0x15#8) = .ok (.ldDTVx x) := by simp [decode, decodeFamilyF]

theorem decode_ldSTVx (x : Reg) : decode (wordXNN 0xF#4 x 0x18#8) = .ok (.ldSTVx x) := by simp [decode, decodeFamilyF]

/-- A write of DT that completes changes DT, PC, which moves past the word, and the recorded answer only. -/
theorem complete_advance_setDT (s : State) (b : Byte) :
    complete (s.advance.setDT b) = .next { s with PC := s.PC + 2#16, DT := b, answer := some .ok } := rfl

/-- A write of ST that completes changes ST, PC, which moves past the word, and the recorded answer only. -/
theorem complete_advance_setST (s : State) (b : Byte) :
    complete (s.advance.setST b) = .next { s with PC := s.PC + 2#16, ST := b, answer := some .ok } := rfl

/-- `LD Vx, DT` writes the delay timer to `V[X]` (R272). -/
theorem exec_ldVxDT (x : Reg) (s : State) : exec (.ldVxDT x) s = complete (s.advance.writeReg x s.DT) := rfl

/-- `LD DT, Vx` writes `V[X]` to the delay timer (R274). -/
theorem exec_ldDTVx (x : Reg) (s : State) : exec (.ldDTVx x) s = complete (s.advance.setDT s.V[x.val]) := rfl

/-- `LD ST, Vx` writes `V[X]` to the sound timer (R275). -/
theorem exec_ldSTVx (x : Reg) (s : State) : exec (.ldSTVx x) s = complete (s.advance.setST s.V[x.val]) := rfl

/-- Settles O53: FX07 decodes to LD Vx, DT, whose only write to the registers is DT to V[X]. -/
theorem ldVxDTReadsTheDelayTimer : Obligations.LdVxDTReadsTheDelayTimer := by
  unfold Obligations.LdVxDTReadsTheDelayTimer
  intro x s
  refine ⟨decode_ldVxDT x, ?_⟩
  rw [exec_ldVxDT, complete_advance_writeReg]

/-- Settles O55: FX15 and FX18 each decode to a load from V[X] that writes one timer and leaves the other. -/
theorem timersAreSetFromVx : Obligations.TimersAreSetFromVx := by
  unfold Obligations.TimersAreSetFromVx
  intro x s
  refine ⟨decode_ldDTVx x, decode_ldSTVx x, ?delay_timer, ?sound_timer⟩
  case delay_timer => rw [exec_ldDTVx, complete_advance_setDT]
  case sound_timer => rw [exec_ldSTVx, complete_advance_setST]

end Sys2Proof.Machine
end

section
/-! Proofs about the errors of the execute phase (60_exceptions.md). -/

namespace Sys2Proof.Machine

/-- A range of at least one byte that passes 0xFFF is reported at its lowest address outside memory (R80, R301). -/
theorem firstOutOfRange_some {a n : Nat} (hn : 0 < n) (h : 0x1000 < a + n) :
    firstOutOfRange a n = some (max a 0x1000) := by
  rw [firstOutOfRange_eq, if_neg (by omega)]

/-- The converse of `exec_outcome`'s error clause: in an error case of its kind an instruction raises that kind. -/
theorem exec_raises_of_errorCase {i : Instr} {s : State} {kind : Fault} (h : ErrorCase s kind i) :
    ∃ a, exec i s = raise s (some (encode i)) kind a := by
  cases i
  case ret =>
    obtain ⟨hempty, rfl⟩ := h
    exact ⟨none, by simp only [exec, execRet, hempty, pop]⟩
  case sys nnn =>
    obtain rfl : kind = .unsupportedOperation := h
    exact ⟨none, rfl⟩
  case call nnn =>
    obtain ⟨hfull, rfl⟩ := h
    exact ⟨none, by simp only [exec, execCall, push, if_neg (Nat.not_lt.2 hfull)]⟩
  case drw x y n =>
    obtain ⟨hn, hrange, rfl⟩ := h
    have hbad := firstOutOfRange_some (a := s.indexAddr) hn (by rw [State.indexAddr]; omega)
    exact ⟨some (max s.indexAddr 0x1000), by simp only [exec, execDrw, hbad]⟩
  case ldB x =>
    obtain ⟨hrange, rfl⟩ := h
    have hbad := firstOutOfRange_some (a := s.indexAddr) (n := 3) (by decide) (by rw [State.indexAddr]; omega)
    exact ⟨some (max s.indexAddr 0x1000), by simp only [exec, execLdB, hbad]⟩
  case stRegs x =>
    obtain ⟨hrange, rfl⟩ := h
    have hbad := firstOutOfRange_some (a := s.indexAddr) x.val.succ_pos (by rw [State.indexAddr]; omega)
    exact ⟨some (max s.indexAddr 0x1000), by simp only [exec, execStRegs, hbad]⟩
  case ldRegs x =>
    obtain ⟨hrange, rfl⟩ := h
    have hbad := firstOutOfRange_some (a := s.indexAddr) x.val.succ_pos (by rw [State.indexAddr]; omega)
    exact ⟨some (max s.indexAddr 0x1000), by simp only [exec, execLdRegs, hbad]⟩
  all_goals exact False.elim h

/-- An `Err` answer of the execute phase is one of its instruction's error cases: completing answers `Ok` and holding
answers `Hold`. -/
theorem errorCase_of_exec_err {i : Instr} {s t : State} {e : ErrRecord} (h : exec i s = .next t)
    (herr : t.answer = some (.err e)) : ErrorCase s e.kind i := by
  obtain ⟨u, hu⟩ | ⟨k, a, hu, hcase, -⟩ | ⟨x, -, -, hu⟩ := exec_outcome i s
  · rw [complete_next (hu.symm.trans h)] at herr
    cases herr
  · rw [raise_next (hu.symm.trans h)] at herr
    cases herr
    exact hcase
  · rw [hold_next (hu.symm.trans h)] at herr
    cases herr

/-- Settles O12: an `Err` answer comes from an error case, and every error case raises its kind. -/
theorem executeErrorsExactlyWhen : Obligations.ExecuteErrorsExactlyWhen := by
  unfold Obligations.ExecuteErrorsExactlyWhen
  intro i s t kind h
  constructor
  · rintro ⟨e, herr, rfl⟩
    exact errorCase_of_exec_err h herr
  · intro hcase
    obtain ⟨a, hraise⟩ := exec_raises_of_errorCase hcase
    rw [raise_next (hraise.symm.trans h)]
    exact ⟨_, State.setAnswer_answer .., rfl⟩

end Sys2Proof.Machine
end

section
/-! Proofs about the decoder and the encoder (30_encoding.md). -/

namespace Sys2Proof.Machine

/-! The decoder on the words of the instructions the sections above do not speak of. -/

/-- Words of one family in format ADDR differ exactly where their addresses do. -/
theorem wordNNN_inj {f : BitVec 4} {a b : Addr12} : wordNNN f a = wordNNN f b ↔ a = b :=
  ⟨fun h => by simpa using congrArg fieldNNN h, congrArg _⟩

theorem decode_sys {nnn : Addr12} (hcls : nnn ≠ 0x0E0#12) (hret : nnn ≠ 0x0EE#12) :
    decode (wordNNN 0x0#4 nnn) = .ok (.sys nnn) := by
  have hcls' : wordNNN 0x0#4 nnn ≠ 0x00E0#16 := fun h => hcls (wordNNN_inj.1 h)
  have hret' : wordNNN 0x0#4 nnn ≠ 0x00EE#16 := fun h => hret (wordNNN_inj.1 h)
  simp [decode, decodeFamily0, hcls', hret']

theorem decode_call (nnn : Addr12) : decode (wordNNN 0x2#4 nnn) = .ok (.call nnn) := by simp [decode]

theorem decode_addByte (x : Reg) (nn : Byte) : decode (wordXNN 0x7#4 x nn) = .ok (.addByte x nn) := by simp [decode]

theorem decode_orReg (x y : Reg) : decode (wordXYN 0x8#4 x y 0x1) = .ok (.orReg x y) := by simp [decode, decodeFamily8]

theorem decode_andReg (x y : Reg) : decode (wordXYN 0x8#4 x y 0x2) = .ok (.andReg x y) := by simp [decode, decodeFamily8]

theorem decode_xorReg (x y : Reg) : decode (wordXYN 0x8#4 x y 0x3) = .ok (.xorReg x y) := by simp [decode, decodeFamily8]

theorem decode_addReg (x y : Reg) : decode (wordXYN 0x8#4 x y 0x4) = .ok (.addReg x y) := by simp [decode, decodeFamily8]

theorem decode_subReg (x y : Reg) : decode (wordXYN 0x8#4 x y 0x5) = .ok (.subReg x y) := by simp [decode, decodeFamily8]

theorem decode_shr (x y : Reg) : decode (wordXYN 0x8#4 x y 0x6) = .ok (.shr x y) := by simp [decode, decodeFamily8]

theorem decode_subn (x y : Reg) : decode (wordXYN 0x8#4 x y 0x7) = .ok (.subn x y) := by simp [decode, decodeFamily8]

theorem decode_shl (x y : Reg) : decode (wordXYN 0x8#4 x y 0xE) = .ok (.shl x y) := by simp [decode, decodeFamily8]

theorem decode_jpV0 (nnn : Addr12) : decode (wordNNN 0xB#4 nnn) = .ok (.jpV0 nnn) := by simp [decode]

theorem decode_rnd (x : Reg) (nn : Byte) : decode (wordXNN 0xC#4 x nn) = .ok (.rnd x nn) := by simp [decode]

theorem decode_drw (x y : Reg) (n : Fin 16) : decode (wordXYN 0xD#4 x y n) = .ok (.drw x y n) := by simp [decode]

theorem decode_skp (x : Reg) : decode (wordXNN 0xE#4 x 0x9E#8) = .ok (.skp x) := by simp [decode, decodeFamilyE]

theorem decode_sknp (x : Reg) : decode (wordXNN 0xE#4 x 0xA1#8) = .ok (.sknp x) := by simp [decode, decodeFamilyE]

theorem decode_ldVxK (x : Reg) : decode (wordXNN 0xF#4 x 0x0A#8) = .ok (.ldVxK x) := by simp [decode, decodeFamilyF]

theorem decode_addI (x : Reg) : decode (wordXNN 0xF#4 x 0x1E#8) = .ok (.addI x) := by simp [decode, decodeFamilyF]

theorem decode_ldF (x : Reg) : decode (wordXNN 0xF#4 x 0x29#8) = .ok (.ldF x) := by simp [decode, decodeFamilyF]

theorem decode_ldB (x : Reg) : decode (wordXNN 0xF#4 x 0x33#8) = .ok (.ldB x) := by simp [decode, decodeFamilyF]

theorem decode_stRegs (x : Reg) : decode (wordXNN 0xF#4 x 0x55#8) = .ok (.stRegs x) := by simp [decode, decodeFamilyF]

theorem decode_ldRegs (x : Reg) : decode (wordXNN 0xF#4 x 0x65#8) = .ok (.ldRegs x) := by simp [decode, decodeFamilyF]

/-- Settles O2: each row of the opcode map is decoded from its own pattern, SYS from every address but those of CLS and RET. -/
theorem decodeInvertsEncode : Obligations.DecodeInvertsEncode := by
  unfold Obligations.DecodeInvertsEncode
  intro i hwf
  cases i with
  | cls => decide
  | ret => decide
  | sys nnn =>
    simp only [Instr.wf, sysAddrOk, Bool.and_eq_true, bne_iff_ne] at hwf
    exact decode_sys hwf.1 hwf.2
  | jp nnn => exact decode_jp nnn
  | call nnn => exact decode_call nnn
  | seByte x nn => exact decode_seByte x nn
  | sneByte x nn => exact decode_sneByte x nn
  | seReg x y => exact decode_seReg x y
  | ldByte x nn => exact decode_ldByte x nn
  | addByte x nn => exact decode_addByte x nn
  | ldReg x y => exact decode_ldReg x y
  | orReg x y => exact decode_orReg x y
  | andReg x y => exact decode_andReg x y
  | xorReg x y => exact decode_xorReg x y
  | addReg x y => exact decode_addReg x y
  | subReg x y => exact decode_subReg x y
  | shr x y => exact decode_shr x y
  | subn x y => exact decode_subn x y
  | shl x y => exact decode_shl x y
  | sneReg x y => exact decode_sneReg x y
  | ldI nnn => exact decode_ldI nnn
  | jpV0 nnn => exact decode_jpV0 nnn
  | rnd x nn => exact decode_rnd x nn
  | drw x y n => exact decode_drw x y n
  | skp x => exact decode_skp x
  | sknp x => exact decode_sknp x
  | ldVxDT x => exact decode_ldVxDT x
  | ldVxK x => exact decode_ldVxK x
  | ldDTVx x => exact decode_ldDTVx x
  | ldSTVx x => exact decode_ldSTVx x
  | addI x => exact decode_addI x
  | ldF x => exact decode_ldF x
  | ldB x => exact decode_ldB x
  | stRegs x => exact decode_stRegs x
  | ldRegs x => exact decode_ldRegs x

/-! The encoder on what the decoder reads from a word: every bit of the word is a field the row fixes or an operand. -/

/-- A word of the formats REG_REG and ALU, from its family, its registers and the sub-code N that selects its row. -/
theorem wordXYN_of_fieldN {w : Word} {f : BitVec 4} {n : Fin 16} (hf : fieldFamily w = f.toNat)
    (hn : (fieldN w).val = n.val) : wordXYN f (fieldX w) (fieldY w) n = w := by
  rw [← Fin.ext hn, wordXYN_fields w f hf]

/-- A word of the format REG_OP, from its family, its register and the low byte that selects its row. -/
theorem wordXNN_of_fieldNN {w : Word} {f : BitVec 4} {nn : Byte} (hf : fieldFamily w = f.toNat)
    (hnn : (fieldNN w).toNat = nn.toNat) : wordXNN f (fieldX w) nn = w := by
  rw [← BitVec.eq_of_toNat_eq hnn, wordXNN_fields w f hf]

theorem encode_decodeFamily0 {w : Word} (hf : fieldFamily w = 0x0) :
    encode (decodeFamily0 w) = w ∧ (decodeFamily0 w).wf = true := by
  have hw : wordNNN 0x0#4 (fieldNNN w) = w := wordNNN_fields w 0x0#4 hf
  unfold decodeFamily0
  by_cases hcls : w = 0x00E0#16
  · rw [if_pos hcls]; exact ⟨hcls.symm, rfl⟩
  · by_cases hret : w = 0x00EE#16
    · rw [if_neg hcls, if_pos hret]; exact ⟨hret.symm, rfl⟩
    · rw [if_neg hcls, if_neg hret]
      have hcls' : fieldNNN w ≠ 0x0E0#12 := fun h => hcls (by rw [← hw, h]; rfl)
      have hret' : fieldNNN w ≠ 0x0EE#12 := fun h => hret (by rw [← hw, h]; rfl)
      exact ⟨hw, by simp [Instr.wf, sysAddrOk, hcls', hret']⟩

theorem encode_decodeFamily8 {w : Word} {i : Instr} (hf : fieldFamily w = 0x8) (h : decodeFamily8 w = .ok i) :
    encode i = w ∧ i.wf = true := by
  unfold decodeFamily8 at h
  split at h <;> cases h
  all_goals exact ⟨wordXYN_of_fieldN hf ‹_›, rfl⟩

theorem encode_decodeFamilyE {w : Word} {i : Instr} (hf : fieldFamily w = 0xE) (h : decodeFamilyE w = .ok i) :
    encode i = w ∧ i.wf = true := by
  unfold decodeFamilyE at h
  split at h <;> cases h
  all_goals exact ⟨wordXNN_of_fieldNN hf ‹_›, rfl⟩

theorem encode_decodeFamilyF {w : Word} {i : Instr} (hf : fieldFamily w = 0xF) (h : decodeFamilyF w = .ok i) :
    encode i = w ∧ i.wf = true := by
  unfold decodeFamilyF at h
  split at h <;> cases h
  all_goals exact ⟨wordXNN_of_fieldNN hf ‹_›, rfl⟩

/-- Settles O3, family by family: the fields the row's format names, put together again, are the word. -/
theorem encodeInvertsDecode : Obligations.EncodeInvertsDecode := by
  unfold Obligations.EncodeInvertsDecode
  intro w i h
  unfold decode at h
  split at h
  case h_1 hf => cases h; exact encode_decodeFamily0 hf
  case h_2 hf => cases h; exact ⟨wordNNN_fields w 0x1#4 hf, rfl⟩
  case h_3 hf => cases h; exact ⟨wordNNN_fields w 0x2#4 hf, rfl⟩
  case h_4 hf => cases h; exact ⟨wordXNN_fields w 0x3#4 hf, rfl⟩
  case h_5 hf => cases h; exact ⟨wordXNN_fields w 0x4#4 hf, rfl⟩
  case h_6 hf => split at h <;> cases h; exact ⟨wordXYN_of_fieldN (f := 0x5#4) hf ‹_›, rfl⟩
  case h_7 hf => cases h; exact ⟨wordXNN_fields w 0x6#4 hf, rfl⟩
  case h_8 hf => cases h; exact ⟨wordXNN_fields w 0x7#4 hf, rfl⟩
  case h_9 hf => exact encode_decodeFamily8 hf h
  case h_10 hf => split at h <;> cases h; exact ⟨wordXYN_of_fieldN (f := 0x9#4) hf ‹_›, rfl⟩
  case h_11 hf => cases h; exact ⟨wordNNN_fields w 0xA#4 hf, rfl⟩
  case h_12 hf => cases h; exact ⟨wordNNN_fields w 0xB#4 hf, rfl⟩
  case h_13 hf => cases h; exact ⟨wordXNN_fields w 0xC#4 hf, rfl⟩
  case h_14 hf => cases h; exact ⟨wordXYN_fields w 0xD#4 hf, rfl⟩
  case h_15 hf => exact encode_decodeFamilyE hf h
  case h_16 hf => exact encode_decodeFamilyF hf h
  case h_17 => cases h

/-! When a family rejects a word (R110). -/

theorem decodeFamily8_unknown (w : Word) :
    decodeFamily8 w = .error (.unknownOpcode w) ↔ w.toNat % 16 ∈ [0x8, 0x9, 0xA, 0xB, 0xC, 0xD, 0xF] := by
  have hlt : w.toNat % 16 < 16 := Nat.mod_lt _ (by decide)
  unfold decodeFamily8
  rw [fieldN_val]
  generalize w.toNat % 16 = n at hlt
  interval_cases n <;> simp

theorem decodeFamilyE_unknown (w : Word) :
    decodeFamilyE w = .error (.unknownOpcode w) ↔ w.toNat % 256 ∉ [0x9E, 0xA1] := by
  unfold decodeFamilyE
  rw [fieldNN_toNat]
  split <;> simp_all

theorem decodeFamilyF_unknown (w : Word) :
    decodeFamilyF w = .error (.unknownOpcode w) ↔
      w.toNat % 256 ∉ [0x07, 0x0A, 0x15, 0x18, 0x1E, 0x29, 0x33, 0x55, 0x65] := by
  unfold decodeFamilyF
  rw [fieldNN_toNat]
  split <;> simp_all

/-- Settles O4: a family but 5, 8, 9, E and F takes all its words, and these five reject those of R110's rows. -/
theorem unknownWordsAreExactlyTheIllegalOnes : Obligations.UnknownWordsAreExactlyTheIllegalOnes := by
  unfold Obligations.UnknownWordsAreExactlyTheIllegalOnes
  intro w
  have hfamily : w.toNat / 4096 = fieldFamily w := by rw [fieldFamily_eq]; omega
  have hlt := fieldFamily_lt w
  unfold decode
  rw [hfamily]
  generalize fieldFamily w = f at hlt
  interval_cases f <;> simp [decodeFamily8_unknown, decodeFamilyE_unknown, decodeFamilyF_unknown, fieldN_val]

/-- Settles O1: each word is decoded by evaluation. -/
theorem sampleWordsDecode : Obligations.SampleWordsDecode := by
  unfold Obligations.SampleWordsDecode
  decide

end Sys2Proof.Machine
end

section
/-! What the execute phase does, said once for all instructions: the state an instruction commits, the record of the error it
raises, and the one case in which it holds (40_step.md). -/

namespace Sys2Proof.Machine

/-- The state that instruction `i` commits where it neither raises an error nor holds, before the answer is recorded
(`exec_of_not_errorCase`). Where it does not complete, the value means nothing. -/
def committed (i : Instr) (s : State) : State :=
  match i with
  | .cls => s.advance.setFb fbClear
  | .ret => (s.setStack s.stack.tail).setPC (s.stack.headD 0#16)
  | .sys _ => s
  | .jp nnn => s.setPC (addrOperand nnn)
  | .call nnn => (s.setStack (s.advance.PC :: s.stack)).setPC (addrOperand nnn)
  | .seByte x nn => s.advance.skipIf (s.reg x == nn)
  | .sneByte x nn => s.advance.skipIf (s.reg x != nn)
  | .seReg x y => s.advance.skipIf (s.reg x == s.reg y)
  | .ldByte x nn => s.advance.writeReg x nn
  | .addByte x nn => s.advance.writeReg x (s.reg x + nn)
  | .ldReg x y => s.advance.writeReg x (s.reg y)
  | .orReg x y => s.advance.writeReg x (s.reg x ||| s.reg y)
  | .andReg x y => s.advance.writeReg x (s.reg x &&& s.reg y)
  | .xorReg x y => s.advance.writeReg x (s.reg x ^^^ s.reg y)
  | .addReg x y => s.advance.writeWithFlag x (s.reg x + s.reg y) (carry (s.reg x) (s.reg y))
  | .subReg x y => s.advance.writeWithFlag x (s.reg x - s.reg y) (noBorrow (s.reg x) (s.reg y))
  | .shr x y => s.advance.writeWithFlag x (s.shiftOperand x y >>> 1) (bitOutRight (s.shiftOperand x y))
  | .subn x y => s.advance.writeWithFlag x (s.reg y - s.reg x) (noBorrow (s.reg y) (s.reg x))
  | .shl x y => s.advance.writeWithFlag x (s.shiftOperand x y <<< 1) (bitOutLeft (s.shiftOperand x y))
  | .sneReg x y => s.advance.skipIf (s.reg x != s.reg y)
  | .ldI nnn => s.advance.setI (addrOperand nnn)
  | .jpV0 nnn => s.setPC (addrOperand nnn + zextByte (s.reg 0))
  | .rnd x nn => s.advance.writeReg x (s.inputs.rand &&& nn)
  | .drw x y n =>
    let drawn := fbDraw s.fb (s.reg x) (s.reg y) (Memory.readBytes s.mem s.indexAddr n.val)
    (s.advance.setFb drawn.1).writeReg regF (b2u drawn.2)
  | .skp x => s.advance.skipIf (s.keyPressed (s.reg x))
  | .sknp x => s.advance.skipIf (!s.keyPressed (s.reg x))
  | .ldVxDT x => s.advance.writeReg x s.DT
  | .ldVxK x => (s.advance.writeReg x (BitVec.ofNat 8 (s.inputs.keyEvent.getD 0).val)).consumeEvent
  | .ldDTVx x => s.advance.setDT (s.reg x)
  | .ldSTVx x => s.advance.setST (s.reg x)
  | .addI x => s.advance.setI (s.I + zextByte (s.reg x))
  | .ldF x => s.advance.setI (s.glyphAddr (s.reg x))
  | .ldB x => s.advance.setMem (Memory.writeBytes s.mem s.indexAddr (bcdDigits (s.reg x)))
  | .stRegs x => s.advance.setMem (Memory.writeBytes s.mem s.indexAddr (s.regsUpTo x))
  | .ldRegs x => s.advance.setV (loadRegsFrom s.V 0 (Memory.readBytes s.mem s.indexAddr (x.val + 1)))

/-- The instruction waits for a key: `FX0A` with no event offered (R273). -/
def Holds (i : Instr) (s : State) : Prop := (∃ x, i = .ldVxK x) ∧ s.inputs.keyEvent = none

/-- Only `FX0A` holds. -/
theorem not_holds {i : Instr} (h : ∀ x, i ≠ .ldVxK x) (s : State) : ¬ Holds i s := fun ⟨⟨x, hx⟩, _⟩ => h x hx

/-- The address an error of the execute phase reports (R43, R80): the lowest address of an access through I that lies outside
memory, for `OutOfBounds` only. -/
def execErrAddr (s : State) (kind : Fault) : Option Nat :=
  if kind = .outOfBounds then some (max s.indexAddr 0x1000) else none

/-- The record of an error of kind `kind` that instruction `i` raises (R43). -/
def execErr (i : Instr) (s : State) (kind : Fault) : ErrRecord := ⟨kind, s.PC, some (encode i), execErrAddr s kind⟩

/-- The state after an error (R146): of `s`, the state before the step, only the status changes, and the step answers `Err`. -/
def State.withError (s : State) (e : ErrRecord) : State := (s.setStatus (.halted e)).setAnswer (some (.err e))

theorem raise_eq (s : State) (word : Option Word) (kind : Fault) (addr : Option Nat) :
    raise s word kind addr = .next (s.withError ⟨kind, s.PC, word, addr⟩) := rfl

/-- `exec_raises_of_errorCase` with its address: in an error case the instruction raises its record. -/
theorem exec_of_errorCase {i : Instr} {s : State} {kind : Fault} (h : ErrorCase s kind i) :
    exec i s = .next (s.withError (execErr i s kind)) := by
  have hbad (n : Nat) (hn : 0 < n) (hrange : 0x1000 < s.I.toNat + n) :
      firstOutOfRange s.indexAddr n = execErrAddr s .outOfBounds := firstOutOfRange_some hn hrange
  cases i
  case ret => obtain ⟨hempty, rfl⟩ := h; simp only [exec, execRet, hempty, pop]; rfl
  case sys nnn => obtain rfl : kind = .unsupportedOperation := h; rfl
  case call nnn =>
    obtain ⟨hfull, rfl⟩ := h
    simp only [exec, execCall, push, if_neg (Nat.not_lt.2 hfull)]; rfl
  case drw x y n =>
    obtain ⟨hn, hrange, rfl⟩ := h
    simp only [exec, execDrw, hbad n.val hn (by omega)]; rfl
  case ldB x =>
    obtain ⟨hrange, rfl⟩ := h
    simp only [exec, execLdB, hbad 3 (by decide) (by omega)]; rfl
  case stRegs x =>
    obtain ⟨hrange, rfl⟩ := h
    simp only [exec, execStRegs, hbad (x.val + 1) x.val.succ_pos (by omega)]; rfl
  case ldRegs x =>
    obtain ⟨hrange, rfl⟩ := h
    simp only [exec, execLdRegs, hbad (x.val + 1) x.val.succ_pos (by omega)]; rfl
  all_goals exact False.elim h

theorem exec_of_holds {i : Instr} {s : State} (h : Holds i s) : exec i s = hold s := by
  obtain ⟨⟨x, rfl⟩, hevent⟩ := h
  simp only [exec, execLdVxK, hevent]

/-- An instruction that neither raises an error nor holds completes, and commits its state. -/
theorem exec_of_not_errorCase {i : Instr} {s : State} (herr : ∀ kind, ¬ ErrorCase s kind i) (hhold : ¬ Holds i s) :
    exec i s = complete (committed i s) := by
  have hrange (n : Nat) (hn : n = 0 ∨ s.I.toNat + n ≤ 0x1000) : firstOutOfRange s.indexAddr n = none :=
    firstOutOfRange_none.2 hn
  cases i
  case ret =>
    cases hstack : s.stack with
    | nil => exact absurd ⟨hstack, rfl⟩ (herr .stackUnderflow)
    | cons a rest => simp only [exec, execRet, hstack, pop, committed, List.tail_cons, List.headD_cons]
  case sys nnn => exact absurd rfl (herr .unsupportedOperation)
  case call nnn =>
    have hroom : s.stack.length < 16 := Nat.not_le.1 fun hfull => herr .stackOverflow ⟨hfull, rfl⟩
    simp only [exec, execCall, push, if_pos hroom, committed]
  case drw x y n =>
    have hin : n.val = 0 ∨ s.I.toNat + n.val ≤ 0x1000 := by
      by_contra hout
      exact herr .outOfBounds ⟨by omega, by omega, rfl⟩
    simp only [exec, execDrw, hrange n.val hin, committed]
  case ldB x =>
    have hin : s.I.toNat + 2 ≤ 0xFFF := Nat.not_lt.1 fun hout => herr .outOfBounds ⟨hout, rfl⟩
    simp only [exec, execLdB, hrange 3 (.inr (by omega)), committed]
  case stRegs x =>
    have hin : s.I.toNat + x.val ≤ 0xFFF := Nat.not_lt.1 fun hout => herr .outOfBounds ⟨hout, rfl⟩
    simp only [exec, execStRegs, hrange (x.val + 1) (.inr (by omega)), committed]
  case ldRegs x =>
    have hin : s.I.toNat + x.val ≤ 0xFFF := Nat.not_lt.1 fun hout => herr .outOfBounds ⟨hout, rfl⟩
    simp only [exec, execLdRegs, hrange (x.val + 1) (.inr (by omega)), committed]
  case ldVxK x =>
    cases hevent : s.inputs.keyEvent with
    | none => exact absurd ⟨⟨x, rfl⟩, hevent⟩ hhold
    | some k => simp only [exec, execLdVxK, hevent, committed, Option.getD_some]
  all_goals rfl

/-- The three ends of the execute phase, each with its condition and its next state. -/
theorem exec_cases (i : Instr) (s : State) :
    (∃ kind, ErrorCase s kind i ∧ exec i s = .next (s.withError (execErr i s kind))) ∨
    (Holds i s ∧ exec i s = .next (s.setAnswer (some .hold))) ∨
    ((∀ kind, ¬ ErrorCase s kind i) ∧ ¬ Holds i s ∧ exec i s = .next ((committed i s).setAnswer (some .ok))) := by
  by_cases herr : ∃ kind, ErrorCase s kind i
  · obtain ⟨kind, hcase⟩ := herr
    exact .inl ⟨kind, hcase, exec_of_errorCase hcase⟩
  · by_cases hhold : Holds i s
    · exact .inr (.inl ⟨hhold, exec_of_holds hhold⟩)
    · have herr := not_exists.1 herr
      exact .inr (.inr ⟨herr, hhold, exec_of_not_errorCase herr hhold⟩)

/-- The inversion of the execute phase: what a next state of it can be. -/
theorem exec_next_cases {i : Instr} {s t : State} (h : exec i s = .next t) :
    (∃ kind, ErrorCase s kind i ∧ t = s.withError (execErr i s kind)) ∨
    (Holds i s ∧ t = s.setAnswer (some .hold)) ∨
    ((∀ kind, ¬ ErrorCase s kind i) ∧ ¬ Holds i s ∧ t = (committed i s).setAnswer (some .ok)) := by
  simpa [h] using exec_cases i s

theorem exec_isNext (i : Instr) (s : State) : ∃ t, exec i s = .next t := by
  obtain ⟨kind, -, h⟩ | ⟨-, h⟩ | ⟨-, -, h⟩ := exec_cases i s <;> exact ⟨_, h⟩

theorem execErr_addr_isSome (i : Instr) (s : State) (kind : Fault) :
    kind = .outOfBounds ↔ (execErr i s kind).addr.isSome = true := by
  by_cases h : kind = .outOfBounds <;> simp [execErr, execErrAddr, h]

/-- Settles O10: of the three ends of the execute phase only raising answers `Err`, and its record is `execErr`. -/
theorem executeErrorsArePrecise : Obligations.ExecuteErrorsArePrecise := by
  unfold Obligations.ExecuteErrorsArePrecise
  intro i s t e h herr
  obtain ⟨kind, -, rfl⟩ | ⟨-, rfl⟩ | ⟨-, -, rfl⟩ := exec_next_cases h <;> cases herr
  exact ⟨rfl, rfl, rfl, execErr_addr_isSome i s kind⟩

/-- Settles O11: of the three ends of the execute phase only holding answers `Hold`, and an instruction that holds is in no
error case. -/
theorem holdsExactlyWithoutAKeyEvent : Obligations.HoldsExactlyWithoutAKeyEvent := by
  unfold Obligations.HoldsExactlyWithoutAKeyEvent
  intro i s t h
  obtain ⟨kind, hcase, rfl⟩ | ⟨hhold, rfl⟩ | ⟨-, hhold, rfl⟩ := exec_next_cases h
  · refine ⟨⟨nofun, ?_⟩, nofun⟩
    rintro ⟨⟨x, rfl⟩, -⟩
    exact hcase.elim
  · exact ⟨⟨fun _ => hhold, fun _ => rfl⟩, fun _ => rfl⟩
  · exact ⟨⟨nofun, fun hhold' => absurd hhold' hhold⟩, nofun⟩

end Sys2Proof.Machine
end

section
/-! What one move of the machine and its host does (40_step.md, 60_exceptions.md). -/

namespace Sys2Proof.Machine

/-! The model's own fields for inputs, moves and answers are no part of the CORE. -/

namespace SameCore

variable {s t u : State}

theorem refl (s : State) : SameCore s s := ⟨rfl, rfl, rfl, rfl, rfl, rfl, rfl, rfl, rfl, rfl, rfl⟩

theorem trans (hst : SameCore s t) (htu : SameCore t u) : SameCore s u where
  V := htu.V.trans hst.V
  I := htu.I.trans hst.I
  PC := htu.PC.trans hst.PC
  stack := htu.stack.trans hst.stack
  DT := htu.DT.trans hst.DT
  ST := htu.ST.trans hst.ST
  fb := htu.fb.trans hst.fb
  mem := htu.mem.trans hst.mem
  status := htu.status.trans hst.status
  fontBase := htu.fontBase.trans hst.fontBase
  shiftSource := htu.shiftSource.trans hst.shiftSource

theorem setAnswer (s : State) (a : Option Answer) : SameCore s (s.setAnswer a) :=
  ⟨rfl, rfl, rfl, rfl, rfl, rfl, rfl, rfl, rfl, rfl, rfl⟩

theorem drawInputs (s : State) : SameCore s s.drawInputs := ⟨rfl, rfl, rfl, rfl, rfl, rfl, rfl, rfl, rfl, rfl, rfl⟩

theorem setInputs (s : State) (inp : StepInputs) : SameCore s (s.setInputs inp) :=
  ⟨rfl, rfl, rfl, rfl, rfl, rfl, rfl, rfl, rfl, rfl, rfl⟩

theorem moveTaken (s : State) : SameCore s s.moveTaken := by constructor <;> simp

end SameCore

/-! A step request: what it samples, and what it runs. -/

theorem State.sampled_of_request {s : State} {inp : StepInputs} (h : s.nextMove = .request inp) :
    s.sampled = s.moveTaken.setInputs inp := by simp only [State.sampled, h]

theorem step_of_requestNext {s : State} (h : s.requestNext) : step s = spendInputs (answerRequest s.sampled) := by
  obtain ⟨inp, hinp⟩ := h
  simp only [step, advanceMachine, performMove, hinp, State.sampled_of_request hinp]

theorem SameCore.sampled (s : State) : SameCore s s.sampled := by
  cases h : s.nextMove with
  | request inp =>
    rw [State.sampled_of_request h]
    exact (SameCore.moveTaken s).trans (SameCore.setInputs _ inp)
  | reset | load | tick => simp only [State.sampled, h]; exact SameCore.refl s

theorem answerRequest_of_halted {s : State} {e : ErrRecord} (h : s.status = .halted e) :
    answerRequest s = .next (s.setAnswer (some (.refused e))) := by simp only [answerRequest, h]

theorem answerRequest_of_running {s : State} (h : s.status = .running) : answerRequest s = runInstruction s := by
  simp only [answerRequest, h]

/-- A step requested of a running machine runs an instruction on the sampled state, and spends the inputs. -/
theorem step_of_running {s : State} (hreq : s.requestNext) (hrun : s.status = .running) :
    step s = spendInputs (runInstruction s.sampled) := by
  rw [step_of_requestNext hreq, answerRequest_of_running ((SameCore.sampled s).status.trans hrun)]

theorem runInstruction_of_fetch_error {s : State} {a : Nat} (h : fetchWord s.mem s.PC.toNat = .error a) :
    runInstruction s = raise s none .outOfBounds (some a) := by simp only [runInstruction, h]

theorem runInstruction_of_decode_error {s : State} {w : Word} {e : DecodeError} (hf : fetchWord s.mem s.PC.toNat = .ok w)
    (hd : decode w = .error e) : runInstruction s = raise s (some w) .unknownOpcode none := by
  simp only [runInstruction, hf, hd]

theorem runInstruction_of_decode {s : State} {w : Word} {i : Instr} (hf : fetchWord s.mem s.PC.toNat = .ok w)
    (hd : decode w = .ok i) : runInstruction s = exec i s := by simp only [runInstruction, hf, hd]

/-- The fetch of a step reads the memory and the PC it was requested in. -/
theorem fetchWord_sampled (s : State) :
    fetchWord s.sampled.mem s.sampled.PC.toNat = fetchWord s.mem s.PC.toNat := by
  rw [(SameCore.sampled s).mem, (SameCore.sampled s).PC]

/-- Settles O5: the sampled state is fetched from and decoded as the state before, and so runs the same instruction. -/
theorem stepRunsTheDecodedInstruction : Obligations.StepRunsTheDecodedInstruction := by
  unfold Obligations.StepRunsTheDecodedInstruction
  intro s w i hreq hrun hf hd
  rw [step_of_running hreq hrun, runInstruction_of_decode ((fetchWord_sampled s).trans hf) hd]

/-- Settles O7: the record of either error holds the sampled state's PC, which is the PC before. -/
theorem fetchAndDecodeErrorsHalt : Obligations.FetchAndDecodeErrorsHalt := by
  unfold Obligations.FetchAndDecodeErrorsHalt
  intro s hreq hrun
  have hpc : s.sampled.PC = s.PC := (SameCore.sampled s).PC
  refine ⟨fun a hf => ?_, fun w hf hd => ?_⟩
  · rw [step_of_running hreq hrun, runInstruction_of_fetch_error ((fetchWord_sampled s).trans hf), ← hpc]; rfl
  · rw [step_of_running hreq hrun, runInstruction_of_decode_error ((fetchWord_sampled s).trans hf) hd, ← hpc]; rfl

/-- Settles O8: refusing changes the answer only, and sampling and spending inputs nothing of the CORE. -/
theorem haltedMachineRefusesSteps : Obligations.HaltedMachineRefusesSteps := by
  unfold Obligations.HaltedMachineRefusesSteps
  intro s e hreq hhalt
  have hsame := SameCore.sampled s
  refine ⟨(s.sampled.setAnswer (some (.refused e))).drawInputs, ?_, rfl,
    hsame.trans ((SameCore.setAnswer _ _).trans (SameCore.drawInputs _))⟩
  rw [step_of_requestNext hreq, answerRequest_of_halted (hsame.status.trans hhalt)]; rfl

/-! The inversion lemmas of a move. -/

/-- The first address a failed fetch reports lies above 0xFFF, and PC at its last byte or above. -/
theorem fetchWord_error {m : Memory} {a b : Nat} (h : fetchWord m a = .error b) :
    Config.lastAddr < b ∧ Config.lastAddr ≤ a := by
  by_cases hr : a + 2 ≤ 0x1000
  · rw [fetchWord_in_range m a hr] at h; cases h
  · rw [fetchWord_out_of_range m a (by omega)] at h
    cases h
    unfold Config.lastAddr
    omega

/-- A word is fetched only where both its bytes lie in memory. -/
theorem fetchWord_ok {m : Memory} {a : Nat} {w : Word} (h : fetchWord m a = .ok w) : a + 2 ≤ 0x1000 := by
  by_contra hr
  rw [fetchWord_out_of_range m a (by omega)] at h
  cases h

/-- The record of an error of the execute phase is sound. -/
theorem recordOk_execErr (i : Instr) (s : State) (kind : Fault) : recordOk s (execErr i s kind) := by
  refine ⟨rfl, execErr_addr_isSome i s kind, ?_, nofun⟩
  intro a ha
  simp only [execErr, execErrAddr] at ha
  split at ha <;> cases ha
  unfold Config.lastAddr
  omega

/-- What running one instruction answers: it raises an error with a sound record, it holds, or an instruction fetched within
memory completes. -/
theorem runInstruction_next_cases {s t : State} (h : runInstruction s = .next t) :
    (∃ e, recordOk s e ∧ t = s.withError e) ∨ t = s.setAnswer (some .hold) ∨
    (∃ i, s.PC.toNat + 2 ≤ 0x1000 ∧ (∀ kind, ¬ ErrorCase s kind i) ∧ t = (committed i s).setAnswer (some .ok)) := by
  obtain ⟨a, hf, hrun⟩ | ⟨w, e, hf, hd, hrun⟩ | ⟨w, i, hf, hd, hrun⟩ := runInstruction_cases s
  · obtain ⟨haddr, hpc⟩ := fetchWord_error hf
    refine .inl ⟨_, ?_, raise_next (hrun ▸ h)⟩
    exact ⟨rfl, by simp, fun b hb => Option.some.inj hb ▸ haddr, fun _ => ⟨rfl, hpc⟩⟩
  · refine .inl ⟨_, ?_, raise_next (hrun ▸ h)⟩
    exact ⟨rfl, by simp, nofun, nofun⟩
  · obtain ⟨kind, -, rfl⟩ | ⟨-, rfl⟩ | ⟨herr, -, rfl⟩ := exec_next_cases (hrun ▸ h)
    · exact .inl ⟨_, recordOk_execErr i s kind, rfl⟩
    · exact .inr (.inl rfl)
    · exact .inr (.inr ⟨i, fetchWord_ok hf, herr, rfl⟩)

theorem answerRequest_next_cases {s t : State} (h : answerRequest s = .next t) :
    (∃ e, s.status = .halted e ∧ t = s.setAnswer (some (.refused e))) ∨
    (s.status = .running ∧ runInstruction s = .next t) := by
  cases hs : s.status with
  | running => exact .inr ⟨rfl, answerRequest_of_running hs ▸ h⟩
  | halted e =>
    rw [answerRequest_of_halted hs] at h
    cases h
    exact .inl ⟨e, rfl, rfl⟩

/-- What one move can answer: the answer to a step request with its inputs spent, or one of the host's three actions. -/
theorem step_next_cases {s t : State} (h : step s = .next t) :
    (s.requestNext ∧ ∃ u, answerRequest s.sampled = .next u ∧ t = u.drawInputs) ∨
    (s.nextMove = .reset ∧ t = hostReset s.moveTaken) ∨
    (∃ bytes, s.nextMove = .load bytes ∧ t = applyLoad bytes s.moveTaken) ∨
    (s.nextMove = .tick ∧ t = hostTick s.moveTaken) := by
  obtain ⟨inp, hm, -⟩ | ⟨hm, hstep⟩ | ⟨bytes, hm, hstep⟩ | ⟨hm, hstep⟩ := advanceMachine_cases s
  · rw [step_of_requestNext ⟨inp, hm⟩] at h
    exact .inl ⟨⟨inp, hm⟩, spendInputs_next h⟩
  · cases hstep.symm.trans h; exact .inr (.inl ⟨hm, rfl⟩)
  · cases hstep.symm.trans h; exact .inr (.inr (.inl ⟨bytes, hm, rfl⟩))
  · cases hstep.symm.trans h; exact .inr (.inr (.inr ⟨hm, rfl⟩))

/-! Every move answers a next state, and leaves the host's later moves alone. -/

/-- Running an instruction answers a next state, in which the host's moves are as before. -/
theorem runInstruction_isNext (s : State) :
    ∃ t, runInstruction s = .next t ∧ t.moves = s.moves ∧ t.movesDrawn = s.movesDrawn := by
  obtain ⟨a, -, hrun⟩ | ⟨w, e, -, -, hrun⟩ | ⟨w, i, -, -, hrun⟩ := runInstruction_cases s
  · exact ⟨_, hrun, rfl, rfl⟩
  · exact ⟨_, hrun, rfl, rfl⟩
  · obtain ⟨t, ht⟩ := exec_isNext i s
    exact ⟨t, hrun.trans ht, exec_host ht⟩

/-- So does answering a step request. -/
theorem answerRequest_isNext (s : State) :
    ∃ t, answerRequest s = .next t ∧ t.moves = s.moves ∧ t.movesDrawn = s.movesDrawn := by
  cases hs : s.status with
  | halted e => exact ⟨_, answerRequest_of_halted hs, rfl, rfl⟩
  | running => rw [answerRequest_of_running hs]; exact runInstruction_isNext s

/-- A move takes the first of the host's moves off, and changes no other. -/
theorem step_isNext (s : State) :
    ∃ t, step s = .next t ∧ t.moves = s.moveTaken.moves ∧ t.movesDrawn = s.moveTaken.movesDrawn := by
  obtain ⟨inp, -, hstep⟩ | ⟨-, hstep⟩ | ⟨bytes, -, hstep⟩ | ⟨-, hstep⟩ := advanceMachine_cases s
  · obtain ⟨u, hu, hmoves, hdrawn⟩ := answerRequest_isNext (s.moveTaken.setInputs inp)
    exact ⟨u.drawInputs, by rw [step, hstep, hu]; rfl, hmoves, hdrawn⟩
  · exact ⟨_, hstep, rfl, rfl⟩
  · refine ⟨_, hstep, ?_⟩
    obtain ⟨-, hload⟩ | ⟨-, hload⟩ := applyLoad_cases bytes s.moveTaken <;> rw [hload] <;> exact ⟨rfl, rfl⟩
  · exact ⟨_, hstep, rfl, rfl⟩

/-- Settles O9: no phase of a step faults or is refused by the model, and only taking a move touches the host's moves. -/
theorem everyMoveAnswersANextState : Obligations.EveryMoveAnswersANextState := by
  unfold Obligations.EveryMoveAnswersANextState
  intro s
  obtain ⟨t, ht, hmoves, hdrawn⟩ := step_isNext s
  exact ⟨t, ht, fun j => (State.hostMove_congr hmoves hdrawn j).trans (s.moveTaken_hostMove j)⟩

/-! Entering and leaving Halted. -/

@[simp] theorem applyLoad_status (bytes : List Byte) (s : State) : (applyLoad bytes s).status = s.status := by
  obtain ⟨-, hload⟩ | ⟨-, hload⟩ := applyLoad_cases bytes s <;> rw [hload] <;> rfl

/-- Settles O13: a halted machine refuses a request, `Load` and `Tick` keep the status, and `Reset` sets it. -/
theorem onlyResetLeavesHalted : Obligations.OnlyResetLeavesHalted := by
  unfold Obligations.OnlyResetLeavesHalted
  intro s t e hhalt h
  obtain ⟨⟨inp, hm⟩, u, hu, rfl⟩ | ⟨hm, rfl⟩ | ⟨bytes, hm, rfl⟩ | ⟨hm, rfl⟩ := step_next_cases h
  · have hsampled : s.sampled.status = .halted e := (SameCore.sampled s).status.trans hhalt
    rw [answerRequest_of_halted hsampled] at hu
    cases hu
    exact .inr ⟨by simp [State.resetNext, hm], hsampled⟩
  · exact .inl ⟨hm, rfl⟩
  · exact .inr ⟨by simp [State.resetNext, hm], by simpa using hhalt⟩
  · exact .inr ⟨by simp [State.resetNext, hm], by simpa using hhalt⟩

/-- No instruction that completes changes the status. -/
@[simp] theorem committed_status (i : Instr) (s : State) : (committed i s).status = s.status := by
  cases i <;> simp [committed]

/-- Settles O14: a running machine keeps its status but where the instruction it runs raises an error. -/
theorem onlyErrorsHalt : Obligations.OnlyErrorsHalt := by
  unfold Obligations.OnlyErrorsHalt
  intro s t hrunning h
  obtain ⟨-, u, hu, rfl⟩ | ⟨-, rfl⟩ | ⟨bytes, -, rfl⟩ | ⟨-, rfl⟩ := step_next_cases h
  · have hsampled : s.sampled.status = .running := (SameCore.sampled s).status.trans hrunning
    rw [answerRequest_of_running hsampled] at hu
    obtain ⟨e, -, rfl⟩ | rfl | ⟨i, -, -, rfl⟩ := runInstruction_next_cases hu
    · exact .inr ⟨e, rfl, rfl⟩
    · exact .inl hsampled
    · exact .inl (by simpa using hsampled)
  · exact .inl rfl
  · exact .inl (by simpa using hrunning)
  · exact .inl (by simpa using hrunning)

end Sys2Proof.Machine
end

section
/-! Proofs about what every move keeps, and about the canonical form of memory (10_state.md, 20_memory.md). -/

namespace Sys2Proof.Machine

/-- A property of the CORE is kept by every move if errors, completed instructions and the host's actions keep it. An error's
record is sound, and a completed instruction was fetched within memory and is in no error case. -/
theorem step_keeps {P : State → Prop} (hsame : ∀ s t, SameCore s t → P s → P t)
    (herror : ∀ s e, recordOk s e → P s → P (s.setStatus (.halted e)))
    (hcommit : ∀ i s, s.status = .running → s.PC.toNat + 2 ≤ 0x1000 → (∀ kind, ¬ ErrorCase s kind i) → P s →
      P (committed i s))
    (hreset : ∀ s, P s → P (hostReset s))
    (hload : ∀ s bytes, bytes.length ≤ Config.loadMax → P s →
      P (s.setMem (Memory.writeBytes s.mem Config.progBase bytes)))
    (htick : ∀ s, P s → P (hostTick s)) : ∀ s t, P s → step s = .next t → P t := by
  intro s t hs h
  obtain ⟨-, u, hu, rfl⟩ | ⟨-, rfl⟩ | ⟨bytes, -, rfl⟩ | ⟨-, rfl⟩ := step_next_cases h
  · refine hsame _ _ (SameCore.drawInputs u) ?_
    have hsampled := hsame _ _ (SameCore.sampled s) hs
    obtain ⟨e, -, rfl⟩ | ⟨hrun, hu⟩ := answerRequest_next_cases hu
    · exact hsame _ _ (SameCore.setAnswer _ _) hsampled
    · obtain ⟨e, hrec, rfl⟩ | rfl | ⟨i, hpc, herr, rfl⟩ := runInstruction_next_cases hu
      · exact hsame _ _ (SameCore.setAnswer _ _) (herror _ e hrec hsampled)
      · exact hsame _ _ (SameCore.setAnswer _ _) hsampled
      · exact hsame _ _ (SameCore.setAnswer _ _) (hcommit i _ hrun hpc herr hsampled)
  · exact hreset _ (hsame _ _ (SameCore.moveTaken s) hs)
  · have htaken := hsame _ _ (SameCore.moveTaken s) hs
    obtain ⟨-, happly⟩ | ⟨hlen, happly⟩ := applyLoad_cases bytes s.moveTaken <;> rw [happly]
    · exact hsame _ _ (SameCore.setAnswer _ _) htaken
    · exact hsame _ _ (SameCore.setAnswer _ _) (hload _ bytes hlen htaken)
  · exact htick _ (hsame _ _ (SameCore.moveTaken s) hs)

/-! ### The invariant -/

theorem recordOk.congr {s t : State} {e : ErrRecord} (h : recordOk s e) (hpc : t.PC = s.PC) : recordOk t e := by
  obtain ⟨hpc', hrest⟩ := h
  exact ⟨hpc'.trans hpc.symm, hrest⟩

/-- A completed instruction stores within memory, so memory stays canonical. -/
theorem wf_committed {i : Instr} {s : State} (herr : ∀ kind, ¬ ErrorCase s kind i) (h : Memory.wf s.mem = true) :
    Memory.wf (committed i s).mem = true := by
  cases i
  case ldB x =>
    have hin : s.I.toNat + 2 ≤ 0xFFF := Nat.not_lt.1 fun hout => herr .outOfBounds ⟨hout, rfl⟩
    exact Memory.wf_writeBytes _ _ _ (by simp [State.indexAddr, bcdDigits]; omega) h
  case stRegs x =>
    have hin : s.I.toNat + x.val ≤ 0xFFF := Nat.not_lt.1 fun hout => herr .outOfBounds ⟨hout, rfl⟩
    exact Memory.wf_writeBytes _ _ _ (by simp only [State.indexAddr, State.length_regsUpTo, Config.lastAddr]; omega) h
  all_goals simpa [committed] using h

/-- A completed instruction leaves at most 16 return addresses: `2NNN` on a full stack is an error. -/
theorem committed_stack_length {i : Instr} {s : State} (herr : ∀ kind, ¬ ErrorCase s kind i) (h : s.stack.length ≤ 16) :
    (committed i s).stack.length ≤ 16 := by
  cases i
  case ret => simp [committed]; omega
  case call nnn =>
    have hroom : s.stack.length < 16 := Nat.not_le.1 fun hfull => herr .stackOverflow ⟨hfull, rfl⟩
    simpa [committed] using hroom
  all_goals simpa [committed] using h

/-- Settles O17 by `step_keeps`: stores stay in memory, a push needs room, and a record is made with the PC that Halted keeps. -/
theorem stepKeepsInv : Obligations.StepKeepsInv := by
  unfold Obligations.StepKeepsInv
  refine step_keeps ?same ?error ?commit ?reset ?load ?tick
  case same =>
    intro s t hsame hs
    refine ⟨hsame.mem ▸ hs.mem, hsame.stack ▸ hs.stack, fun e he => ?_⟩
    exact (hs.record e (hsame.status ▸ he)).congr hsame.PC
  case error =>
    intro s e hrec hs
    refine ⟨hs.mem, hs.stack, fun e' he' => ?_⟩
    cases he'
    exact hrec
  case commit =>
    intro i s hrun _ herr hs
    refine ⟨wf_committed herr hs.mem, committed_stack_length herr hs.stack, fun e he => ?_⟩
    rw [committed_status, hrun] at he
    cases he
  case reset => exact fun s hs => ⟨hs.mem, Nat.zero_le _, nofun⟩
  case load =>
    intro s bytes hlen hs
    have hfits : Config.progBase + bytes.length ≤ Config.lastAddr + 1 := by
      unfold Config.loadMax at hlen; unfold Config.progBase Config.lastAddr; omega
    exact ⟨Memory.wf_writeBytes _ _ _ hfits hs.mem, hs.stack, hs.record⟩
  case tick => exact fun s hs => ⟨hs.mem, hs.stack, hs.record⟩

/-! ### The bound on PC -/

theorem addrOperand_toNat (nnn : Addr12) : (addrOperand nnn).toNat = nnn.toNat := by
  rw [addrOperand, BitVec.toNat_setWidth]; omega

/-- `NNN + V[0]` does not reach 65536, so PC holds the sum (R198). -/
theorem addrOperand_add_zextByte_toNat (nnn : Addr12) (b : Byte) :
    (addrOperand nnn + zextByte b).toNat = nnn.toNat + b.toNat := by
  have hb : (zextByte b).toNat = b.toNat := by rw [zextByte, BitVec.toNat_setWidth]; omega
  rw [BitVec.toNat_add, addrOperand_toNat, hb]; omega

/-- After an instruction fetched within memory PC is at most 0x10FE, which `BNNN` reaches, and a pushed address at most
0x1000. -/
theorem pcBounded_committed (i : Instr) {s : State} (hpc : s.PC.toNat + 2 ≤ 0x1000) (hs : s.PcBounded) :
    (committed i s).PcBounded := by
  have hnext : (s.PC + 2#16).toNat ≤ 0x1000 := by bv_omega
  have hskip (c : Bool) : (s.advance.skipIf c).PcBounded := by
    refine ⟨?_, by simpa using hs.stack⟩
    rw [State.skipIf_PC, State.advance_PC]
    split <;> bv_omega
  cases i
  case sys nnn => exact hs
  case seByte | sneByte | seReg | sneReg | skp | sknp => exact hskip _
  case jp nnn => exact ⟨by simp only [committed, State.setPC_PC, addrOperand_toNat]; omega, hs.stack⟩
  case jpV0 nnn =>
    exact ⟨by simp only [committed, State.setPC_PC, addrOperand_add_zextByte_toNat]; omega, hs.stack⟩
  case call nnn =>
    refine ⟨by simp only [committed, State.setPC_PC, addrOperand_toNat]; omega, ?_⟩
    exact List.forall_mem_cons.2 ⟨hnext, hs.stack⟩
  case ret =>
    cases hstack : s.stack with
    | nil => constructor <;> simp [committed, hstack]
    | cons a rest =>
      obtain ⟨ha, hrest⟩ := List.forall_mem_cons.1 (hstack ▸ hs.stack)
      exact ⟨by simp [committed, hstack]; omega, by simpa [committed, hstack] using hrest⟩
  all_goals exact ⟨hnext.trans (by decide), hs.stack⟩

/-- Settles O18 by `step_keeps`: an instruction completes only where its word lies within memory, so PC0 is at most 0xFFE. -/
theorem stepKeepsPcBounded : Obligations.StepKeepsPcBounded := by
  unfold Obligations.StepKeepsPcBounded
  refine step_keeps ?same ?error ?commit ?reset ?load ?tick
  case same => exact fun s t hsame hs => ⟨hsame.PC ▸ hs.pc, hsame.stack ▸ hs.stack⟩
  case commit => exact fun i s _ hpc _ hs => pcBounded_committed i hpc hs
  case reset => exact fun s _ => ⟨by rw [hostReset_PC]; decide, nofun⟩
  case error => exact fun s e _ hs => ⟨hs.pc, hs.stack⟩
  case load => exact fun s bytes _ hs => ⟨hs.pc, hs.stack⟩
  case tick => exact fun s hs => ⟨hs.pc, hs.stack⟩

/-- Settles O15: at reset memory and the stack are empty, the machine runs, and PC is 0x200. -/
theorem resetMeetsTheInvariants : Obligations.ResetMeetsTheInvariants := by
  unfold Obligations.ResetMeetsTheInvariants
  exact ⟨⟨rfl, Nat.zero_le _, nofun⟩, ⟨by decide, nofun⟩⟩

/-- Settles O16: the register file and the framebuffer are filled with one value each. -/
theorem resetStateHoldsTheResetValues : Obligations.ResetStateHoldsTheResetValues := by
  unfold Obligations.ResetStateHoldsTheResetValues
  exact ⟨fun x => Vector.getElem_replicate x.isLt, rfl, rfl, rfl, fbGet_fbClear, rfl, rfl, rfl⟩

/-! ### The canonical form determines the list -/

theorem Memory.wfFrom_cons {lo : Nat} {c : Host.Cell} {m : Memory} : Memory.wfFrom lo (c :: m) = true ↔
    lo ≤ c.1 ∧ c.1 ≤ Config.lastAddr ∧ c.2 ≠ Memory.unlisted ∧ Memory.wfFrom (c.1 + 1) m = true := by
  simp [Memory.wfFrom, and_assoc]

/-- The first cell of a canonical memory, which reads as no unlisted address does, lies no lower than that of another that
reads alike. -/
theorem Memory.head_le_of_read_eq {lo lo' : Nat} {c d : Host.Cell} {m n : Memory} (hm : Memory.wfFrom lo (c :: m) = true)
    (hn : Memory.wfFrom lo' (d :: n) = true) (h : ∀ a, Memory.read (c :: m) a = Memory.read (d :: n) a) : d.1 ≤ c.1 := by
  by_contra hlt
  obtain ⟨-, -, hc, -⟩ := Memory.wfFrom_cons.1 hm
  obtain ⟨-, hd⟩ := Memory.wfFrom_cons.1 hn
  have hunlisted : Memory.read (d :: n) c.1 = Memory.unlisted :=
    Memory.read_of_lt_wfFrom _ d.1 _ (Memory.wfFrom_cons.2 ⟨le_rfl, hd⟩) (by omega)
  rw [← h c.1] at hunlisted
  simp [Memory.read, hc] at hunlisted

/-- A canonical memory with a cell does not read as the empty one. -/
theorem Memory.exists_read_ne_unlisted {lo : Nat} {c : Host.Cell} {m : Memory} (hm : Memory.wfFrom lo (c :: m) = true) :
    ∃ a, Memory.read (c :: m) a ≠ Memory.unlisted := by
  obtain ⟨-, -, hc, -⟩ := Memory.wfFrom_cons.1 hm
  exact ⟨c.1, by simpa [Memory.read] using hc⟩

theorem Memory.eq_of_read_eq {lo lo' : Nat} {m n : Memory} (hm : Memory.wfFrom lo m = true) (hn : Memory.wfFrom lo' n = true)
    (h : ∀ a, Memory.read m a = Memory.read n a) : m = n := by
  induction m generalizing n lo lo' with
  | nil =>
    cases n with
    | nil => rfl
    | cons d n =>
      obtain ⟨a, ha⟩ := Memory.exists_read_ne_unlisted hn
      exact absurd (h a).symm ha
  | cons c m ih =>
    cases n with
    | nil =>
      obtain ⟨a, ha⟩ := Memory.exists_read_ne_unlisted hm
      exact absurd (h a) ha
    | cons d n =>
      have haddr : c.1 = d.1 :=
        Nat.le_antisymm (Memory.head_le_of_read_eq hn hm fun a => (h a).symm) (Memory.head_le_of_read_eq hm hn h)
      have hbyte : c.2 = d.2 := by simpa [Memory.read, haddr] using h c.1
      obtain ⟨-, -, -, hm⟩ := Memory.wfFrom_cons.1 hm
      obtain ⟨-, -, -, hn⟩ := Memory.wfFrom_cons.1 hn
      rw [Prod.ext haddr hbyte, ih hm hn]
      intro a
      by_cases ha : a ≤ c.1
      · rw [Memory.read_of_lt_wfFrom m _ a hm (by omega), Memory.read_of_lt_wfFrom n _ a hn (by omega)]
      · simpa [Memory.read, show c.1 ≠ a by omega, show d.1 ≠ a by omega] using h a

/-- Settles O19: cell by cell, the lowest address that reads as listed is the first cell's. -/
theorem canonicalMemoriesThatReadAlikeAreEqual : Obligations.CanonicalMemoriesThatReadAlikeAreEqual := by
  unfold Obligations.CanonicalMemoriesThatReadAlikeAreEqual
  exact fun m n hm hn h => Memory.eq_of_read_eq hm hn h

end Sys2Proof.Machine
end

section
/-! Frames over all instructions: what each leaves unchanged, and what it does not read (10_state.md, 00_scope.md). -/

namespace Sys2Proof.Machine

/-! ### The registers -/

theorem getElem_set_of_ne {x r : Reg} (h : r ≠ x) (v : Vector Byte 16) (b : Byte) : (v.set x.val b)[r.val] = v[r.val] :=
  Vector.getElem_set_ne x.isLt r.isLt fun heq => h (Fin.ext heq.symm)

/-- A completed instruction keeps the registers that are no destination of it. -/
theorem committed_V_of_not_isDest {i : Instr} {r : Reg} (h : ¬ isDest r i) (s : State) :
    (committed i s).V[r.val] = s.V[r.val] := by
  cases i
  case ldByte | addByte | ldReg | orReg | andReg | xorReg | rnd | ldVxDT | ldVxK => exact getElem_set_of_ne h _ _
  case addReg | subReg | shr | subn | shl =>
    obtain ⟨hx, hflag⟩ := not_or.1 h
    exact (getElem_set_of_ne hflag _ _).trans (getElem_set_of_ne hx _ _)
  case drw => exact getElem_set_of_ne h _ _
  case ldRegs x =>
    have hout : ¬ (0 ≤ r.val ∧ r.val < 0 + (x.val + 1)) := by
      have hx : ¬ r.val ≤ x.val := h
      omega
    simp only [committed, State.setV_V, getElem_loadRegsFrom, Memory.length_readBytes, if_neg hout]
  case seByte | sneByte | seReg | sneReg | skp | sknp => simp only [committed, State.skipIf_V, State.advance_V]
  all_goals rfl

/-- Settles O20: an error and a hold keep every register, and a completed instruction those it has no destination in. -/
theorem onlyDestinationRegistersChange : Obligations.OnlyDestinationRegistersChange := by
  unfold Obligations.OnlyDestinationRegistersChange
  intro i s t r h hdest
  obtain ⟨kind, -, rfl⟩ | ⟨-, rfl⟩ | ⟨-, -, rfl⟩ := exec_next_cases h
  · rfl
  · rfl
  · exact committed_V_of_not_isDest hdest s

/-! ### I, the timers, the stack, the framebuffer and the parameters: which completed instructions write them -/

theorem committed_I (i : Instr) (s : State) :
    (committed i s).I = s.I ∨ (∃ nnn, i = .ldI nnn) ∨ (∃ x, i = .addI x) ∨ ∃ x, i = .ldF x := by
  cases i <;> simp [committed]

theorem committed_DT (i : Instr) (s : State) : (committed i s).DT = s.DT ∨ ∃ x, i = .ldDTVx x := by
  cases i <;> simp [committed]

theorem committed_ST (i : Instr) (s : State) : (committed i s).ST = s.ST ∨ ∃ x, i = .ldSTVx x := by
  cases i <;> simp [committed]

theorem committed_stack (i : Instr) (s : State) :
    (committed i s).stack = s.stack ∨ i = .ret ∨ ∃ nnn, i = .call nnn := by
  cases i <;> simp [committed]

theorem committed_fb (i : Instr) (s : State) : (committed i s).fb = s.fb ∨ i = .cls ∨ ∃ x y n, i = .drw x y n := by
  cases i <;> simp [committed]

@[simp] theorem committed_fontBase (i : Instr) (s : State) : (committed i s).fontBase = s.fontBase := by
  cases i <;> simp [committed]

@[simp] theorem committed_shiftSource (i : Instr) (s : State) : (committed i s).shiftSource = s.shiftSource := by
  cases i <;> simp [committed]

/-- Settles O21: an error and a hold keep every field the statement names, and a completed instruction all but its own. -/
theorem specialStateChangesOnlyByItsInstructions : Obligations.SpecialStateChangesOnlyByItsInstructions := by
  unfold Obligations.SpecialStateChangesOnlyByItsInstructions
  intro i s t h
  obtain ⟨kind, -, rfl⟩ | ⟨-, rfl⟩ | ⟨-, -, rfl⟩ := exec_next_cases h
  · exact ⟨.inl rfl, .inl rfl, .inl rfl, .inl rfl, .inl rfl, rfl, rfl⟩
  · exact ⟨.inl rfl, .inl rfl, .inl rfl, .inl rfl, .inl rfl, rfl, rfl⟩
  · exact ⟨committed_I i s, committed_DT i s, committed_ST i s, committed_stack i s, committed_fb i s,
      committed_fontBase i s, committed_shiftSource i s⟩

/-! ### Memory -/

/-- A completed instruction keeps every byte outside those `FX33` and `FX55` store. -/
theorem read_committed_of_outside {i : Instr} {s : State} {a : Nat}
    (hldB : ∀ x, i = .ldB x → a < s.indexAddr ∨ s.indexAddr + 3 ≤ a)
    (hstRegs : ∀ x, i = .stRegs x → a < s.indexAddr ∨ s.indexAddr + (x.val + 1) ≤ a) :
    Memory.read (committed i s).mem a = Memory.read s.mem a := by
  cases i
  case ldB x => exact Memory.read_writeBytes_outside _ _ _ _ (hldB x rfl)
  case stRegs x => exact Memory.read_writeBytes_outside _ _ _ _ (by simpa using hstRegs x rfl)
  all_goals simp [committed]

/-- Settles O22: an error and a hold keep memory, and a completed instruction the bytes outside its run. -/
theorem onlyStoredBytesChange : Obligations.OnlyStoredBytesChange := by
  unfold Obligations.OnlyStoredBytesChange
  intro i s t a h hldB hstRegs
  obtain ⟨kind, -, rfl⟩ | ⟨-, rfl⟩ | ⟨-, -, rfl⟩ := exec_next_cases h
  · rfl
  · rfl
  · exact read_committed_of_outside hldB hstRegs

/-! ### What an instruction does not read -/

/-- The error cases look at the stack and I only. -/
theorem errorCase_congr {s t : State} (hstack : t.stack = s.stack) (hI : t.I = s.I) (i : Instr) (kind : Fault) :
    ErrorCase t kind i ↔ ErrorCase s kind i := by
  cases i <;> simp only [ErrorCase, hstack, hI]

/-- An update `f` of a part of the state that decides neither errors nor holding, and that the instruction's committed state
carries over, can be made before the instruction or after it. -/
theorem exec_update {f : State → State} {i : Instr} {s t : State} (hstack : (f s).stack = s.stack) (hI : (f s).I = s.I)
    (hhold : Holds i (f s) ↔ Holds i s)
    (herror : ∀ kind, (f s).withError (execErr i (f s) kind) = f (s.withError (execErr i s kind)))
    (hanswer : ∀ u a, (f u).setAnswer a = f (u.setAnswer a)) (hcommit : committed i (f s) = f (committed i s))
    (h : exec i s = .next t) : exec i (f s) = .next (f t) := by
  obtain ⟨kind, hcase, rfl⟩ | ⟨hholds, rfl⟩ | ⟨herr, hholds, rfl⟩ := exec_next_cases h
  · rw [exec_of_errorCase ((errorCase_congr hstack hI i kind).2 hcase), herror]
  · rw [exec_of_holds (hhold.2 hholds), hold, hanswer]
  · have herr' := fun kind => mt (errorCase_congr hstack hI i kind).1 (herr kind)
    rw [exec_of_not_errorCase herr' (mt hhold.1 hholds), complete, hcommit, hanswer]

theorem State.skipIf_setInputs (s : State) (inp : StepInputs) (c : Bool) :
    (s.setInputs inp).skipIf c = (s.skipIf c).setInputs inp := by cases c <;> rfl

theorem State.skipIf_setST (s : State) (b : Byte) (c : Bool) : (s.setST b).skipIf c = (s.skipIf c).setST b := by
  cases c <;> rfl

/-- Settles O23: the four instructions set apart are those whose committed state reads the inputs. -/
theorem inputsMatterToFourInstructionsOnly : Obligations.InputsMatterToFourInstructionsOnly := by
  unfold Obligations.InputsMatterToFourInstructionsOnly
  intro i s t inp h hrnd hskp hsknp hldVxK
  have hhold := not_holds hldVxK
  refine exec_update (f := (·.setInputs inp)) rfl rfl (iff_of_false (hhold _) (hhold _)) (fun _ => rfl) (fun _ _ => rfl) ?_ h
  cases i
  case rnd x nn => exact absurd rfl (hrnd x nn)
  case skp x => exact absurd rfl (hskp x)
  case sknp x => exact absurd rfl (hsknp x)
  case ldVxK x => exact absurd rfl (hldVxK x)
  case seByte | sneByte | seReg | sneReg => exact State.skipIf_setInputs s.advance inp _
  all_goals rfl

/-- Settles O24: the committed state of no instruction reads ST, and of FX18 alone replaces it. -/
theorem noInstructionReadsST : Obligations.NoInstructionReadsST := by
  unfold Obligations.NoInstructionReadsST
  intro i s t b h
  split
  case h_1 x => exact h
  case h_2 hst =>
    refine exec_update (f := (·.setST b)) rfl rfl Iff.rfl (fun _ => rfl) (fun _ _ => rfl) ?_ h
    cases i
    case ldSTVx x => exact (hst x rfl).elim
    case seByte | sneByte | seReg | sneReg | skp | sknp => exact State.skipIf_setST s.advance b _
    all_goals rfl

end Sys2Proof.Machine
end

section
/-! Proofs about the instructions that read or write memory through I (41_display.md, 44_index_memory.md). -/

namespace Sys2Proof.Machine

/-- The bytes of a range, one by one. -/
theorem Memory.readBytes_eq_map (m : Memory) (a n : Nat) :
    Memory.readBytes m a n = (List.range n).map (fun r => Memory.read m (a + r)) := by
  apply List.ext_getElem
  · simp
  · intro k hk _
    simp [Memory.getElem_readBytes m a n k hk]

/-- A sprite within memory, or one of no rows, is drawn (R175). -/
theorem exec_drw_of_in_range {s : State} (x y : Reg) {n : Fin 16} (h : n.val = 0 ∨ s.I.toNat + n.val ≤ 0x1000) :
    exec (.drw x y n) s = complete (committed (.drw x y n) s) :=
  exec_of_not_errorCase (fun _ ⟨hn, hout, _⟩ => by omega) (not_holds (by simp) s)

/-- Digits within memory are stored (R253). -/
theorem exec_ldB_of_in_range {s : State} (x : Reg) (h : s.I.toNat + 2 ≤ 0xFFF) :
    exec (.ldB x) s = complete (s.advance.setMem (Memory.writeBytes s.mem s.I.toNat (bcdDigits s.V[x.val]))) :=
  exec_of_not_errorCase (fun _ ⟨hout, _⟩ => by omega) (not_holds (by simp) s)

/-- A run of registers within memory is stored (R254). -/
theorem exec_stRegs_of_in_range {s : State} {x : Reg} (h : s.I.toNat + x.val ≤ 0xFFF) :
    exec (.stRegs x) s = complete (s.advance.setMem (Memory.writeBytes s.mem s.I.toNat (s.regsUpTo x))) :=
  exec_of_not_errorCase (fun _ ⟨hout, _⟩ => by omega) (not_holds (by simp) s)

/-- A run of registers within memory is loaded (R255). -/
theorem exec_ldRegs_of_in_range {s : State} {x : Reg} (h : s.I.toNat + x.val ≤ 0xFFF) :
    exec (.ldRegs x) s =
      complete (s.advance.setV (loadRegsFrom s.V 0 (Memory.readBytes s.mem s.I.toNat (x.val + 1)))) :=
  exec_of_not_errorCase (fun _ ⟨hout, _⟩ => by omega) (not_holds (by simp) s)

/-- Settles O27: within memory DXYN draws the bytes of its range, and past 0xFFF it raises the record of its error case. -/
theorem drwDrawsTheSpriteAtI : Obligations.DrwDrawsTheSpriteAtI := by
  unfold Obligations.DrwDrawsTheSpriteAtI
  intro x y n s
  refine ⟨decode_drw x y n, ?drawn, ?out_of_bounds⟩
  case drawn =>
    rintro hin d rfl
    rw [exec_drw_of_in_range x y hin, ← Memory.readBytes_eq_map]; rfl
  case out_of_bounds =>
    rintro hn hout e rfl
    exact exec_of_errorCase ⟨by omega, by omega, rfl⟩

/-- Each digit stands at its address (R253, D17). -/
theorem read_writeBytes_bcdDigits (m : Memory) (a : Nat) (v : Byte) :
    (Memory.read (Memory.writeBytes m a (bcdDigits v)) a).toNat = v.toNat / 100 ∧
    (Memory.read (Memory.writeBytes m a (bcdDigits v)) (a + 1)).toNat = v.toNat / 10 % 10 ∧
    (Memory.read (Memory.writeBytes m a (bcdDigits v)) (a + 2)).toNat = v.toNat % 10 := by
  have hv := v.isLt
  simp only [Memory.read_writeBytes, bcdDigits]
  refine ⟨?_, ?_, ?_⟩ <;> simp <;> omega

/-- Settles O47: the three digits fit a byte each; past 0xFFF the record is that of the error case. -/
theorem ldBStoresTheDigits : Obligations.LdBStoresTheDigits := by
  unfold Obligations.LdBStoresTheDigits
  intro x s
  refine ⟨decode_ldB x, ?stored, ?out_of_bounds⟩
  case stored =>
    intro hin
    obtain ⟨hhundreds, htens, hones⟩ := read_writeBytes_bcdDigits s.mem s.I.toNat s.V[x.val]
    exact ⟨_, exec_ldB_of_in_range x hin, hhundreds, htens, hones, fun a ha => Memory.read_writeBytes_outside _ _ _ _ ha⟩
  case out_of_bounds =>
    rintro hout e rfl
    exact exec_of_errorCase ⟨hout, rfl⟩

/-- A dumped register stands at its place in the run (R254). -/
theorem read_writeBytes_regsUpTo (m : Memory) (a : Nat) (s : State) {x k : Reg} (h : k ≤ x) :
    Memory.read (Memory.writeBytes m a (s.regsUpTo x)) (a + k.val) = s.V[k.val] := by
  have hk : k.val < x.val + 1 := Nat.lt_succ_of_le h
  rw [Memory.read_writeBytes, State.length_regsUpTo, if_pos (by omega), Nat.add_sub_cancel_left,
    State.getElem_regsUpTo s x k.val hk]

/-- Settles O48: the dump writes the run at I; past 0xFFF the record is that of the error case. -/
theorem stRegsDumpsTheRegisters : Obligations.StRegsDumpsTheRegisters := by
  unfold Obligations.StRegsDumpsTheRegisters
  intro x s
  refine ⟨decode_stRegs x, ?dumped, ?out_of_bounds⟩
  case dumped =>
    intro hin
    refine ⟨_, exec_stRegs_of_in_range hin, fun k => read_writeBytes_regsUpTo _ _ _, fun a ha => ?_⟩
    exact Memory.read_writeBytes_outside _ _ _ _ (by simpa using ha)
  case out_of_bounds =>
    rintro hout e rfl
    exact exec_of_errorCase ⟨hout, rfl⟩

/-- After a load from memory the registers up to X hold the run's bytes, the others what they held (R255). -/
theorem getElem_loadRegsFrom_readBytes (v : Vector Byte 16) (m : Memory) (a : Nat) (x k : Reg) :
    (loadRegsFrom v 0 (Memory.readBytes m a (x.val + 1)))[k.val] =
      if k ≤ x then Memory.read m (a + k.val) else v[k.val] := by
  rw [getElem_loadRegsFrom, Memory.length_readBytes]
  by_cases hk : k ≤ x
  · have hlt : k.val < x.val + 1 := Nat.lt_succ_of_le hk
    have hlen : k.val < (Memory.readBytes m a (x.val + 1)).length := by simpa using hlt
    rw [if_pos (by omega), if_pos hk, Nat.sub_zero, List.getD_eq_getElem _ _ hlen, Memory.getElem_readBytes]
  · have hge : ¬ k.val ≤ x.val := hk
    rw [if_neg (by omega), if_neg hk]

/-- Settles O49: the load reads the run at I; past 0xFFF the record is that of the error case. -/
theorem ldRegsLoadsTheRegisters : Obligations.LdRegsLoadsTheRegisters := by
  unfold Obligations.LdRegsLoadsTheRegisters
  intro x s
  refine ⟨decode_ldRegs x, ?loaded, ?out_of_bounds⟩
  case loaded =>
    intro hin
    exact ⟨_, exec_ldRegs_of_in_range hin, getElem_loadRegsFrom_readBytes s.V s.mem s.I.toNat x⟩
  case out_of_bounds =>
    rintro hout e rfl
    exact exec_of_errorCase ⟨hout, rfl⟩

/-- Settles O50: the load reads, at the I the dump left, the bytes the dump stored there. -/
theorem dumpThenLoadRestoresTheRegisters : Obligations.DumpThenLoadRestoresTheRegisters := by
  unfold Obligations.DumpThenLoadRestoresTheRegisters
  intro x s v hin
  refine ⟨_, _, exec_stRegs_of_in_range hin, exec_ldRegs_of_in_range hin, fun k => ?_, rfl⟩
  refine (getElem_loadRegsFrom_readBytes v _ s.I.toNat x k).trans ?_
  by_cases hk : k ≤ x
  · rw [if_pos hk, if_pos hk]; exact read_writeBytes_regsUpTo _ _ _ hk
  · rw [if_neg hk, if_neg hk]

/-- Settles O51: both bytes of the word are in the dumped run, which lies within memory. -/
theorem storedRegistersAreFetchedAsWords : Obligations.StoredRegistersAreFetchedAsWords := by
  unfold Obligations.StoredRegistersAreFetchedAsWords
  intro x k k1 s hin hk1 hle
  have hk1x : k1.val ≤ x.val := hle
  have hkx : k ≤ x := Fin.le_def.2 (by omega)
  refine ⟨_, exec_stRegs_of_in_range hin, ?_⟩
  rw [fetchWord_in_range _ _ (by omega), Nat.add_assoc, ← hk1, State.setAnswer_mem, State.setMem_mem,
    read_writeBytes_regsUpTo _ _ _ hkx, read_writeBytes_regsUpTo _ _ _ hle]

end Sys2Proof.Machine
end

section
/-! Proofs about returns, calls, and the jump through V0 (42_flow.md). -/

namespace Sys2Proof.Machine

/-- A return pops PC where an entry is left (R190). -/
theorem exec_ret_of_cons {s : State} {a : Word} {rest : List Word} (h : s.stack = a :: rest) :
    exec .ret s = complete ((s.setStack rest).setPC a) := by
  have herr : ∀ kind, ¬ ErrorCase s kind .ret := by
    rintro kind ⟨hempty, -⟩
    exact List.cons_ne_nil a rest (h.symm.trans hempty)
  rw [exec_of_not_errorCase herr (not_holds (by simp) s), committed, h, List.tail_cons, List.headD_cons]

/-- A call pushes the advanced PC where an entry is free (R193). -/
theorem exec_call_of_room {s : State} (nnn : Addr12) (h : s.stack.length < 16) :
    exec (.call nnn) s = complete ((s.setStack ((s.PC + 2#16) :: s.stack)).setPC (addrOperand nnn)) :=
  exec_of_not_errorCase (fun _ ⟨hfull, _⟩ => by omega) (not_holds (by simp) s)

/-- A step that replaces the stack and PC changes nothing else but the recorded answer. -/
theorem complete_setStack_setPC (s : State) (st : List Word) (a : Word) :
    complete ((s.setStack st).setPC a) = .next { s with PC := a, stack := st, answer := some .ok } := rfl

/-- Settles O28: 00EE completes where an entry is left; on the empty stack the record is that of its error case. -/
theorem retPopsPc : Obligations.RetPopsPc := by
  unfold Obligations.RetPopsPc
  refine ⟨by decide, fun s => ⟨fun a rest h => ?popped, ?underflow⟩⟩
  case popped => rw [exec_ret_of_cons h, complete_setStack_setPC]
  case underflow =>
    rintro hempty e rfl
    exact exec_of_errorCase ⟨hempty, rfl⟩

/-- Settles O29: SYS is in its error case in every state. -/
theorem sysHaltsUnsupported : Obligations.SysHaltsUnsupported := by
  unfold Obligations.SysHaltsUnsupported
  intro nnn s
  refine ⟨decode_sys, ?_⟩
  rintro e rfl
  exact exec_of_errorCase (kind := .unsupportedOperation) rfl

/-- Settles O31: 2NNN completes where an entry is free; on a full stack the record is that of its error case. -/
theorem callPushesTheReturnAddress : Obligations.CallPushesTheReturnAddress := by
  unfold Obligations.CallPushesTheReturnAddress
  intro nnn s
  refine ⟨decode_call nnn, fun hroom => ?pushed, ?overflow⟩
  case pushed => rw [exec_call_of_room nnn hroom, complete_setStack_setPC, addrOperand_eq_ofNat]
  case overflow =>
    rintro hfull e rfl
    exact exec_of_errorCase ⟨hfull, rfl⟩

/-- Settles O32: the return pops the address that the call pushed. -/
theorem retAfterCallReturnsPastTheCall : Obligations.RetAfterCallReturnsPastTheCall := by
  unfold Obligations.RetAfterCallReturnsPastTheCall
  intro nnn s hroom
  exact ⟨_, exec_call_of_room nnn hroom, exec_ret_of_cons rfl⟩

/-- `JP V0, addr` adds V0 to its operand (R198). -/
theorem exec_jpV0 (nnn : Addr12) (s : State) :
    exec (.jpV0 nnn) s = complete (s.setPC (addrOperand nnn + zextByte s.V[0])) := rfl

/-- Settles O35: 12 bits plus 8 bits stay below 65536, so the sum is exact. -/
theorem jpV0AddsV0 : Obligations.JpV0AddsV0 := by
  unfold Obligations.JpV0AddsV0
  intro nnn s
  have hsum := addrOperand_add_zextByte_toNat nnn s.V[0]
  refine ⟨decode_jpV0 nnn, _, exec_jpV0 nnn s, rfl, hsum, ?_⟩
  calc (addrOperand nnn + zextByte s.V[0]).toNat = nnn.toNat + s.V[0].toNat := hsum
    _ ≤ 0x10FE := by omega

end Sys2Proof.Machine
end

section
/-! Proofs about the arithmetic and logic instructions (43_alu.md). -/

namespace Sys2Proof.Machine

/-! What each writes: a result, and with it a flag where it has one. -/

theorem exec_addByte (x : Reg) (nn : Byte) (s : State) :
    exec (.addByte x nn) s = complete (s.advance.writeReg x (s.V[x.val] + nn)) := rfl

theorem exec_orReg (x y : Reg) (s : State) :
    exec (.orReg x y) s = complete (s.advance.writeReg x (s.V[x.val] ||| s.V[y.val])) := rfl

theorem exec_andReg (x y : Reg) (s : State) :
    exec (.andReg x y) s = complete (s.advance.writeReg x (s.V[x.val] &&& s.V[y.val])) := rfl

theorem exec_xorReg (x y : Reg) (s : State) :
    exec (.xorReg x y) s = complete (s.advance.writeReg x (s.V[x.val] ^^^ s.V[y.val])) := rfl

theorem exec_rnd (x : Reg) (nn : Byte) (s : State) :
    exec (.rnd x nn) s = complete (s.advance.writeReg x (s.inputs.rand &&& nn)) := rfl

theorem exec_addReg (x y : Reg) (s : State) : exec (.addReg x y) s =
    complete (s.advance.writeWithFlag x (s.V[x.val] + s.V[y.val]) (carry s.V[x.val] s.V[y.val])) := rfl

theorem exec_subReg (x y : Reg) (s : State) : exec (.subReg x y) s =
    complete (s.advance.writeWithFlag x (s.V[x.val] - s.V[y.val]) (noBorrow s.V[x.val] s.V[y.val])) := rfl

theorem exec_subn (x y : Reg) (s : State) : exec (.subn x y) s =
    complete (s.advance.writeWithFlag x (s.V[y.val] - s.V[x.val]) (noBorrow s.V[y.val] s.V[x.val])) := rfl

theorem exec_shr (x y : Reg) (s : State) : exec (.shr x y) s =
    complete (s.advance.writeWithFlag x (s.shiftOperand x y >>> 1) (bitOutRight (s.shiftOperand x y))) := rfl

theorem exec_shl (x y : Reg) (s : State) : exec (.shl x y) s =
    complete (s.advance.writeWithFlag x (s.shiftOperand x y <<< 1) (bitOutLeft (s.shiftOperand x y))) := rfl

/-- A result and its flag that complete change V[X], VF, PC, which moves past the word, and the recorded answer only. -/
theorem complete_advance_writeWithFlag (s : State) (x : Reg) (r : Byte) (t : Bool) :
    complete (s.advance.writeWithFlag x r t) =
      .next { s with PC := s.PC + 2#16, V := (s.V.set x.val r).set 15 (b2u t), answer := some .ok } := rfl

/-! The results and the flags as numbers (R219). -/

theorem b2u_carry (a b : Byte) : b2u (carry a b) = if 255 < a.toNat + b.toNat then 1#8 else 0#8 := by
  simp only [b2u, carry, decide_eq_true_eq]

theorem b2u_noBorrow (a b : Byte) : b2u (noBorrow a b) = if b.toNat ≤ a.toNat then 1#8 else 0#8 := by
  simp only [b2u, noBorrow, decide_eq_true_eq]

/-- Subtraction mod 256 is that of the integers. -/
theorem sub_eq_ofInt (a b : Byte) : a - b = BitVec.ofInt 8 ((a.toNat : Int) - b.toNat) := by
  apply BitVec.eq_of_toNat_eq
  rw [BitVec.toNat_sub, BitVec.toNat_ofInt]
  omega

theorem ushiftRight_one_eq_ofNat (a : Byte) : a >>> 1 = BitVec.ofNat 8 (a.toNat / 2) := by
  apply BitVec.eq_of_toNat_eq
  rw [BitVec.toNat_ushiftRight, BitVec.toNat_ofNat, Nat.shiftRight_eq_div_pow]
  omega

theorem shiftLeft_one_eq_ofNat (a : Byte) : a <<< 1 = BitVec.ofNat 8 (2 * a.toNat) := by
  apply BitVec.eq_of_toNat_eq
  rw [BitVec.toNat_shiftLeft, BitVec.toNat_ofNat, Nat.shiftLeft_eq]
  omega

/-- Bit `i` of a byte as a number. -/
theorem b2u_getLsbD (a : Byte) (i : Nat) : b2u (a.getLsbD i) = BitVec.ofNat 8 (a.toNat / 2 ^ i % 2) := by
  rw [BitVec.getLsbD, Nat.testBit_eq_decide_div_mod_eq, b2u]
  obtain h | h := Nat.mod_two_eq_zero_or_one (a.toNat / 2 ^ i) <;> simp [h]

theorem b2u_bitOutRight (a : Byte) : b2u (bitOutRight a) = BitVec.ofNat 8 (a.toNat % 2) := by
  rw [bitOutRight, b2u_getLsbD, pow_zero, Nat.div_one]

theorem b2u_bitOutLeft (a : Byte) : b2u (bitOutLeft a) = BitVec.ofNat 8 (a.toNat / 128) := by
  have htop : a.toNat / 2 ^ 7 % 2 = a.toNat / 128 := by omega
  rw [bitOutLeft, b2u_getLsbD, htop]

/-- The shift source, told by the parameter (R228, R230). -/
theorem State.shiftOperand_eq (s : State) (x y : Reg) :
    s.shiftOperand x y = if s.shiftSource = .vx then s.V[x.val] else s.V[y.val] := by
  unfold State.shiftOperand
  cases s.shiftSource <;> rfl

/-- Settles O37: the sum of bytes is the sum mod 256, and the only register written is V[X]. -/
theorem addByteAddsWithoutFlag : Obligations.AddByteAddsWithoutFlag := by
  unfold Obligations.AddByteAddsWithoutFlag
  intro x nn s
  refine ⟨decode_addByte x nn, ?_⟩
  rw [exec_addByte, complete_advance_writeReg, BitVec.add_def]

/-- Settles O39: the only register each of the three writes is V[X]. -/
theorem logicActsBitwiseWithoutFlag : Obligations.LogicActsBitwiseWithoutFlag := by
  unfold Obligations.LogicActsBitwiseWithoutFlag
  intro x y s
  refine ⟨decode_orReg x y, decode_andReg x y, decode_xorReg x y, ?or, ?and, ?xor⟩
  case or => rw [exec_orReg, complete_advance_writeReg]
  case and => rw [exec_andReg, complete_advance_writeReg]
  case xor => rw [exec_xorReg, complete_advance_writeReg]

/-- Settles O40: the carry is read from the operands before the sum is written, and written after it. -/
theorem addRegAddsWithCarry : Obligations.AddRegAddsWithCarry := by
  unfold Obligations.AddRegAddsWithCarry
  intro x y s
  refine ⟨decode_addReg x y, ?_⟩
  rw [exec_addReg, complete_advance_writeWithFlag, b2u_carry, BitVec.add_def]

/-- Settles O41: both subtract mod 256, with the operands of one exchanged in the other. -/
theorem subAndSubnSubtractWithNoBorrowFlag : Obligations.SubAndSubnSubtractWithNoBorrowFlag := by
  unfold Obligations.SubAndSubnSubtractWithNoBorrowFlag
  intro x y s
  refine ⟨decode_subReg x y, decode_subn x y, ?sub, ?subn⟩
  case sub => rw [exec_subReg, complete_advance_writeWithFlag, b2u_noBorrow, sub_eq_ofInt]
  case subn => rw [exec_subn, complete_advance_writeWithFlag, b2u_noBorrow, sub_eq_ofInt]

/-- Settles O42: halving and doubling are the shifts by one, and the bit shifted out is bit 0 or bit 7 of the source. -/
theorem shiftsMoveTheBitOutIntoVF : Obligations.ShiftsMoveTheBitOutIntoVF := by
  unfold Obligations.ShiftsMoveTheBitOutIntoVF
  rintro x y s src rfl
  rw [← State.shiftOperand_eq]
  refine ⟨decode_shr x y, decode_shl x y, ?shr, ?shl⟩
  case shr => rw [exec_shr, complete_advance_writeWithFlag, b2u_bitOutRight, ushiftRight_one_eq_ofNat]
  case shl => rw [exec_shl, complete_advance_writeWithFlag, b2u_bitOutLeft, shiftLeft_one_eq_ofNat]

/-- Settles O43: the masked byte is that of the step's inputs. -/
theorem rndMasksTheRandomByte : Obligations.RndMasksTheRandomByte := by
  unfold Obligations.RndMasksTheRandomByte
  intro x nn s
  refine ⟨decode_rnd x nn, ?_⟩
  rw [exec_rnd, complete_advance_writeReg]

end Sys2Proof.Machine
end

section
/-! Proofs about the sums into the index register and about the keys (44_index_memory.md, 45_keys_timers.md). -/

namespace Sys2Proof.Machine

/-- `ADD I, Vx` adds V[X] to I (R251). -/
theorem exec_addI (x : Reg) (s : State) : exec (.addI x) s = complete (s.advance.setI (s.I + zextByte s.V[x.val])) := rfl

/-- `LD F, Vx` writes the address of V[X]'s glyph (R252). -/
theorem exec_ldF (x : Reg) (s : State) : exec (.ldF x) s = complete (s.advance.setI (s.glyphAddr s.V[x.val])) := rfl

/-- A sum of a word and a byte, mod 65536. -/
theorem add_zextByte_eq_ofNat (a : Word) (b : Byte) : a + zextByte b = BitVec.ofNat 16 (a.toNat + b.toNat) := by
  apply BitVec.eq_of_toNat_eq
  rw [BitVec.toNat_add, BitVec.toNat_ofNat, zextByte, BitVec.toNat_setWidth]
  omega

/-- Settles O45: the sum of words is the sum mod 65536. -/
theorem addIAddsMod65536 : Obligations.AddIAddsMod65536 := by
  unfold Obligations.AddIAddsMod65536
  intro x s
  refine ⟨decode_addI x, ?_⟩
  rw [exec_addI, complete_advance_setI, add_zextByte_eq_ofNat]

/-- Settles O46: the glyph's address is computed from the parameter as the state holds it. -/
theorem ldFPointsAtTheGlyph : Obligations.LdFPointsAtTheGlyph := by
  unfold Obligations.LdFPointsAtTheGlyph
  intro x s
  refine ⟨decode_ldF x, ?_⟩
  rw [exec_ldF, complete_advance_setI, State.glyphAddr]

/-- `SKP Vx` skips when the key V[X] is pressed (R270). -/
theorem exec_skp (x : Reg) (s : State) : exec (.skp x) s = complete (s.advance.skipIf (s.keyPressed s.V[x.val])) := rfl

/-- `SKNP Vx` skips when the key V[X] is not pressed (R271). -/
theorem exec_sknp (x : Reg) (s : State) : exec (.sknp x) s = complete (s.advance.skipIf (!s.keyPressed s.V[x.val])) := rfl

/-- Settles O52: `p` is the lookup both instructions make, one of them negated. -/
theorem keySkipsReadTheKeyState : Obligations.KeySkipsReadTheKeyState := by
  unfold Obligations.KeySkipsReadTheKeyState
  intro x s p hp
  have hpressed : s.keyPressed s.V[x.val] = p := hp.symm
  refine ⟨decode_skp x, decode_sknp x, ?skp, ?sknp⟩
  case skp => rw [exec_skp, complete_advance_skipIf, hpressed]
  case sknp =>
    rw [exec_sknp, complete_advance_skipIf, hpressed]
    cases p <;> rfl

/-- `LD Vx, K` takes an event that is offered (R273, R277). -/
theorem exec_ldVxK_of_event {s : State} (x : Reg) {k : Fin 16} (h : s.inputs.keyEvent = some k) :
    exec (.ldVxK x) s = complete ((s.advance.writeReg x (BitVec.ofNat 8 k.val)).consumeEvent) := by
  simp only [exec, execLdVxK, h]

/-- Settles O54: the event decides between completing and holding. -/
theorem ldVxKWaitsForAKey : Obligations.LdVxKWaitsForAKey := by
  unfold Obligations.LdVxKWaitsForAKey
  intro x s
  refine ⟨decode_ldVxK x, fun k hevent => ?taken, fun hnone => ?held⟩
  case taken => rw [exec_ldVxK_of_event x hevent]; rfl
  case held => exact exec_of_holds ⟨⟨x, rfl⟩, hnone⟩

end Sys2Proof.Machine
end

section
/-! Proofs about the host's moves and about runs (70_reset_and_hazards.md, 40_step.md). -/

namespace Sys2Proof.Machine

/-! ### One action of the host -/

theorem step_of_reset {s : State} (h : s.nextMove = .reset) : step s = .next (hostReset s.moveTaken) := by
  simp only [step, advanceMachine, performMove, h]

theorem step_of_load {s : State} {bytes : List Byte} (h : s.nextMove = .load bytes) :
    step s = .next (applyLoad bytes s.moveTaken) := by simp only [step, advanceMachine, performMove, h]

theorem step_of_tick {s : State} (h : s.nextMove = .tick) : step s = .next (hostTick s.moveTaken) := by
  simp only [step, advanceMachine, performMove, h]

/-- Settles O56: taking the move off the plan keeps memory and the parameters, and so does `Reset`. -/
theorem resetMoveRestoresTheResetValues : Obligations.ResetMoveRestoresTheResetValues := by
  unfold Obligations.ResetMoveRestoresTheResetValues
  intro s h
  exact ⟨_, step_of_reset h, fun x => Vector.getElem_replicate x.isLt, rfl, rfl, rfl, fbGet_fbClear, rfl, rfl, rfl,
    State.moveTaken_mem s, State.moveTaken_fontBase s, State.moveTaken_shiftSource s, rfl⟩

/-- A tick takes one from a timer, and natural subtraction stops at 0 as the timer does (R278). -/
theorem tickTimer_toNat (b : Byte) : (tickTimer b).toNat = b.toNat - 1 := by
  unfold tickTimer
  split
  case isTrue h => rw [h]; rfl
  case isFalse h => bv_omega

/-- Settles O57: `Tick` replaces the two timers and the answer. -/
theorem tickMoveDecrementsTheTimers : Obligations.TickMoveDecrementsTheTimers := by
  unfold Obligations.TickMoveDecrementsTheTimers
  intro s h
  refine ⟨tickTimer s.DT, tickTimer s.ST, tickTimer_toNat s.DT, tickTimer_toNat s.ST, ?_⟩
  rw [step_of_tick h, ← State.moveTaken_DT s, ← State.moveTaken_ST s]; rfl

/-- Settles O58: the loader's check of the length decides between writing the run at 0x200 and failing. -/
theorem loadMoveWritesTheProgram : Obligations.LoadMoveWritesTheProgram := by
  unfold Obligations.LoadMoveWritesTheProgram
  intro s bytes h
  rw [step_of_load h]
  obtain ⟨hlong, happly⟩ | ⟨hfits, happly⟩ := applyLoad_cases bytes s.moveTaken
  · exact ⟨fun hfits => absurd hlong (Nat.not_lt.2 hfits), fun _ => congrArg _ happly⟩
  · refine ⟨fun _ => ⟨_, congrArg _ happly, fun a => ?_⟩, fun hlong => absurd hlong (Nat.not_lt.2 hfits)⟩
    rw [State.setMem_mem, Memory.read_writeBytes, State.moveTaken_mem]

/-! ### Runs -/

/-- A run goes on from the next state. -/
theorem run_succ {s t : State} (h : step s = .next t) (k : Nat) :
    Host.Core.run core (k + 1) s = Host.Core.run core k t := by
  have hcore : core.step s = .next t := h
  simp only [Host.Core.run, hcore]

/-- After a move the host's moves are those after its first. -/
theorem hostMove_of_step {s t : State} (h : step s = .next t) (j : Nat) : t.hostMove j = s.hostMove (j + 1) := by
  obtain ⟨u, hu, hhost⟩ := everyMoveAnswersANextState s
  cases hu.symm.trans h
  exact hhost j

/-! ### The normal end -/

theorem State.normalEnd.congr {s t : State} (hsame : SameCore s t) (h : s.normalEnd) : t.normalEnd := by
  unfold State.normalEnd
  rw [hsame.status, hsame.mem, hsame.PC]
  exact h

/-- A requested step at a jump to itself leaves the CORE as it was. -/
theorem step_of_normalEnd {s : State} (hreq : s.requestNext) (h : s.normalEnd) :
    ∃ t, step s = .next t ∧ SameCore s t := by
  obtain ⟨hrun, nnn, hfetch, htarget⟩ := h
  have hsame := SameCore.sampled s
  have hpc : addrOperand nnn = s.sampled.PC := htarget.trans hsame.PC.symm
  refine ⟨(s.sampled.setAnswer (some .ok)).drawInputs, ?_,
    hsame.trans ((SameCore.setAnswer _ _).trans (SameCore.drawInputs _))⟩
  rw [stepRunsTheDecodedInstruction s _ _ hreq hrun hfetch (decode_jp nnn), exec_jp, hpc]; rfl

/-- Settles O59, by induction on the number of steps: the CORE after a step is that of the normal end before it. -/
theorem normalEndLastsForever : Obligations.NormalEndLastsForever := by
  unfold Obligations.NormalEndLastsForever
  intro k
  induction k with
  | zero => exact fun s _ _ => ⟨s, rfl, SameCore.refl s⟩
  | succ k ih =>
    intro s hend hhost
    obtain ⟨inp, hinp⟩ := hhost 0 k.succ_pos
    obtain ⟨u, hu, hsame⟩ := step_of_normalEnd ⟨inp, s.hostMove_zero.symm.trans hinp⟩ hend
    have hhost' (j : Nat) (hj : j < k) : ∃ inp, u.hostMove j = .request inp := by
      rw [hostMove_of_step hu]
      exact hhost (j + 1) (Nat.succ_lt_succ hj)
    obtain ⟨t, hrun, hsame'⟩ := ih u (hend.congr hsame) hhost'
    exact ⟨t, (run_succ hu k).trans hrun, hsame.trans hsame'⟩

/-! ### Ticks between two steps -/

/-- What `k` ticks from `s` leave of the state: the delay timer less `k`, and the rest that a step of the timers looks at as
it was. -/
structure Ticked (k : Nat) (s t : State) : Prop where
  V        : t.V = s.V
  PC       : t.PC = s.PC
  mem      : t.mem = s.mem
  status   : t.status = s.status
  DT       : t.DT.toNat = s.DT.toNat - k
  hostMove : ∀ j, t.hostMove j = s.hostMove (j + k)

/-- A run through `k` ticks of the host goes on from a state that differs as `Ticked` says. -/
theorem run_ticks (k : Nat) (s : State) (h : ∀ j, j < k → s.hostMove j = .tick) :
    ∃ t, Ticked k s t ∧ ∀ n, Host.Core.run core (k + n) s = Host.Core.run core n t := by
  induction k generalizing s with
  | zero => exact ⟨s, ⟨rfl, rfl, rfl, rfl, rfl, fun _ => rfl⟩, fun n => by rw [Nat.zero_add]⟩
  | succ k ih =>
    have hstep := step_of_tick (s.hostMove_zero.symm.trans (h 0 k.succ_pos))
    have hhost := hostMove_of_step hstep
    obtain ⟨t, ht, hrun⟩ := ih _ fun j hj => (hhost j).trans (h (j + 1) (Nat.succ_lt_succ hj))
    refine ⟨t, ⟨?_, ?_, ?_, ?_, ?_, fun j => (ht.hostMove j).trans (hhost (j + k))⟩, fun n => ?_⟩
    · simpa using ht.V
    · simpa using ht.PC
    · simpa using ht.mem
    · simpa using ht.status
    · rw [ht.DT, hostTick_DT, tickTimer_toNat, State.moveTaken_DT]; omega
    · rw [Nat.add_right_comm, run_succ hstep, hrun]

/-- A requested step at `FX15`. -/
theorem step_of_ldDTVx {s : State} {x : Reg} (hreq : s.requestNext) (hrun : s.status = .running)
    (hfetch : fetchWord s.mem s.PC.toNat = .ok (wordXNN 0xF#4 x 0x15#8)) :
    ∃ t, step s = .next t ∧ t.V = s.V ∧ t.PC = s.PC + 2#16 ∧ t.mem = s.mem ∧ t.status = .running ∧ t.DT = s.V[x.val] := by
  have hsame := SameCore.sampled s
  refine ⟨((s.sampled.advance.setDT s.sampled.V[x.val]).setAnswer (some .ok)).drawInputs, ?_, hsame.V,
    congrArg (· + 2#16) hsame.PC, hsame.mem, hsame.status.trans hrun, by simp [hsame.V]⟩
  rw [stepRunsTheDecodedInstruction s _ _ hreq hrun hfetch (decode_ldDTVx x), exec_ldDTVx]; rfl

/-- A requested step at `FX07`. -/
theorem step_of_ldVxDT {s : State} {y : Reg} (hreq : s.requestNext) (hrun : s.status = .running)
    (hfetch : fetchWord s.mem s.PC.toNat = .ok (wordXNN 0xF#4 y 0x07#8)) :
    ∃ t, step s = .next t ∧ t.answer = some .ok ∧ t.PC = s.PC + 2#16 ∧ t.V = s.V.set y.val s.DT ∧ t.mem = s.mem := by
  have hsame := SameCore.sampled s
  refine ⟨((s.sampled.advance.writeReg y s.sampled.DT).setAnswer (some .ok)).drawInputs, ?_, rfl,
    congrArg (· + 2#16) hsame.PC, by simp [hsame.V, hsame.DT], hsame.mem⟩
  rw [stepRunsTheDecodedInstruction s _ _ hreq hrun hfetch (decode_ldVxDT y), exec_ldVxDT]; rfl

/-- Settles O60: the step at FX15 sets DT, the ticks take k from it and keep both words, and the step at FX07 reads it. -/
theorem anyNumberOfTicksFallsBetweenTwoSteps : Obligations.AnyNumberOfTicksFallsBetweenTwoSteps := by
  unfold Obligations.AnyNumberOfTicksFallsBetweenTwoSteps
  rintro k s x y hrun hfetch hfetch' ⟨inp, hfirst⟩ hticks ⟨inp', hlast⟩
  obtain ⟨u, hu, huV, huPC, humem, hustatus, huDT⟩ :=
    step_of_ldDTVx ⟨inp, s.hostMove_zero.symm.trans hfirst⟩ hrun hfetch
  obtain ⟨v, hv, hrunTicks⟩ := run_ticks k u fun j hj => (hostMove_of_step hu j).trans (hticks j hj)
  have hvnext : v.nextMove = .request inp' := by
    rw [← v.hostMove_zero, hv.hostMove, Nat.zero_add, hostMove_of_step hu, hlast]
  have hvPC : v.PC.toNat = s.PC.toNat + 2 := by
    have hword := fetchWord_ok hfetch
    rw [hv.PC, huPC]; bv_omega
  have hvfetch : fetchWord v.mem v.PC.toNat = .ok (wordXNN 0xF#4 y 0x07#8) := by
    rw [hvPC, hv.mem, humem]; exact hfetch'
  obtain ⟨t, ht, htanswer, htPC, htV, htmem⟩ := step_of_ldVxDT ⟨inp', hvnext⟩ (hv.status.trans hustatus) hvfetch
  rw [hv.V, huV] at htV
  refine ⟨t, ?run, htanswer, ?PC, ?value, ?others, ?mem⟩
  case run => rw [run_succ hu (k + 1), hrunTicks 1, run_succ ht 0]; rfl
  case PC => rw [htPC, hv.PC, huPC, BitVec.add_assoc]; rfl
  case value => simp [htV, hv.DT, huDT]
  case others => intro r hr; simp only [htV]; exact getElem_set_of_ne hr _ _
  case mem => rw [htmem, hv.mem, humem]

end Sys2Proof.Machine
end
